-- ==== Sys2Proof/Word.lean ====
section
/-! DEFINITION. The word types and the small data types that instructions are made of.

The spec's widths are fixed (R10): a byte is 8 bits, a word 16 bits. The enumerations name what an instruction's
fields select; how each is placed in and read from an encoding is in Decode.lean, how each is printed in
Machine/Operands.lean. -/

namespace Sys2Proof

/-- A byte (R10). -/
abbrev Byte := BitVec 8

/-- A word (R10): 16-bit displacements, immediates, addresses, far-pointer halves. -/
abbrev Word := BitVec 16

/-- A 3-bit register field: an index into `REG8` or `REG16` (R70, R71); which of the two is the width's matter. -/
abbrev RegField := BitVec 3

/-- The operand width, the `w` field of R68: 0 for byte and 1 for word. -/
inductive Width where
  | byte
  | word
  deriving DecidableEq, Repr

/-- The direction, the `d` field of R68. `regFirst` is `d = 1`: the ModRM.reg operand is the destination. -/
inductive Dir where
  | rmFirst
  | regFirst
  deriving DecidableEq, Repr

/-- The count source of a shift, the `v` field of R68: 0 selects the count `1`, 1 selects `CL`. -/
inductive ShiftCount where
  | one
  | cl
  deriving DecidableEq, Repr

/-- The repeat prefix, the `z` field of R68: 0xF2 is REPNE, 0xF3 is REP. -/
inductive RepKind where
  | repne
  | rep
  deriving DecidableEq, Repr

/-- The segment registers of table `SREG` (R72), in table order. -/
inductive Sreg where
  | es
  | cs
  | ss
  | ds
  deriving DecidableEq, Repr

/-- The base expressions of table `EA` (R73), in table order. -/
inductive EaBase where
  | bxSi
  | bxDi
  | bpSi
  | bpDi
  | si
  | di
  | bp
  | bx
  deriving DecidableEq, Repr

/-- A memory operand as encoded by ModRM (R124): `direct` is `mod = 00, rm = 110`, `base` any other `mod = 00`,
`disp8` is `mod = 01`, `disp16` is `mod = 10`. The displacement is kept as its encoded bits. -/
inductive Mem where
  | direct (a : Word)
  | base   (e : EaBase)
  | disp8  (e : EaBase) (v : Byte)
  | disp16 (e : EaBase) (v : Word)
  deriving DecidableEq, Repr

/-- An r/m operand (R124): a register (`mod = 11`) or memory. -/
inductive Rm where
  | reg (r : RegField)
  | mem (m : Mem)
  deriving DecidableEq, Repr

/-- An immediate read by `w` alone (R130, R131): one byte when `w = 0`, a word when `w = 1`. -/
inductive ImmW where
  | imm8  (v : Byte)
  | imm16 (v : Word)
  deriving DecidableEq, Repr

/-- An immediate of the arithmetic immediate group, read by `(s, w)` (R129). `imm8 s v` is `w = 0` with either `s`
(0x80 and 0x82 behave alike), `sext8` is `s = 1, w = 1`, `imm16` is `s = 0, w = 1`. -/
inductive ImmSW where
  | imm8  (s : Bool) (v : Byte)
  | sext8 (v : Byte)
  | imm16 (v : Word)
  deriving DecidableEq, Repr

/-- Register and immediate of form REG_IMM (R146): the width bit is opcode bit 3. -/
inductive RegImm where
  | r8  (r : RegField) (v : Byte)
  | r16 (r : RegField) (v : Word)
  deriving DecidableEq, Repr

/-- The width an immediate of form GRP_RM_IMM_W or ACC_IMM was read with (R130, R131). -/
def ImmW.width : ImmW → Width
  | .imm8 _  => .byte
  | .imm16 _ => .word

/-- The width `w` of a GRP_RM_IMM_SW instruction with this immediate (R129). -/
def ImmSW.width : ImmSW → Width
  | .imm8 _ _ => .byte
  | .sext8 _  => .word
  | .imm16 _  => .word

end Sys2Proof
end

