-- ==== Sys2Proof/Config.lean ====
section
/-! DEFINITION. What is fixed for a run and is no state of the block (R9, R22), where the spec leaves it open.

`Buf` is supplied by the host for each run (R401) and stands in State (log 1, log 3). -/

namespace Sys2Proof

/-- A character a listing line may hold: ASCII and no line break (R27, R14; D5 for the source name). -/
def isPlainChar (c : Char) : Bool :=
  decide (c.toNat < 128) && decide (c ≠ '\n') && decide (c ≠ '\r')

/-- A text that may stand as one line of the listing (R27): ASCII without line breaks. -/
def isPlain (t : String) : Bool := t.toList.all isPlainChar

/-- `SourceName` (R9, D5: OPEN, "any ASCII text without line breaks") of the machine `State.reset` is: a name the model
chose. DESIGN CHOICE, unsafe (log 2); State carries the name of a run, and no statement rests on this one. -/
def Config.sourceName : String := "program"

/-- `LoadBase` (R9): the default value. -/
def Config.loadBase : Word := 0

/-- The longest instruction (R66, R67). -/
def Config.maxInstrBytes : Nat := 8

end Sys2Proof
end

