-- ==== Sys2Proof/Machine/Header.lean ====
section
/-! DEFINITION. The two header lines of the listing (R86, R167). They stand apart from State.lean so that a repair may
mend them. -/

namespace Sys2Proof.Machine

/-- `HeaderLine` (R167): the comment line naming the source. A name that is empty or ends in a space (D5 allows both) makes the
line end in a space, which R168's "no trailing spaces" excludes: keeping R167's text there is the model's choice, DESIGN CHOICE,
unsafe for such a name (log 20). -/
def headerLine (sourceName : String) : String := "; " ++ sourceName

/-- `DirectiveLine` (R167): the mode directive. -/
def directiveLine : String := "bits 16"

end Sys2Proof.Machine
end

