-- ==== Sys2Proof/Machine/State.lean ====
section
/-! DEFINITION. The state of the block (R23 to R27), the run's parameters it carries (R9, log 1), reset (R34, R401), and
the reasons a step can stop. -/

namespace Sys2Proof.Machine

/-- `status` (R25). `done` and `error` are terminal. -/
inductive Status where
  | running
  | done
  | error
  deriving DecidableEq, Repr

/-- The three kinds of decode error (R381). -/
inductive ErrorKind where
  | unexpectedEndOfStream
  | unknownOpcode
  | invalidField
  deriving DecidableEq, Repr

/-- The seven field names of an `InvalidField` record (R384). -/
inductive FieldName where
  | reg
  | mod
  | sreg
  | aamAadBase
  | prefixByte
  | repFollow
  | segmentOverride
  deriving DecidableEq, Repr

/-- The error record (R26). Its `code` is a function of `kind` and is computed (`ErrorRecord.code`, log 9). -/
structure ErrorRecord where
  /-- which of the three errors -/
  kind : ErrorKind
  /-- offset of the first byte of the instruction that failed -/
  instrStart : Nat
  /-- offset of the offending byte, or where the failing read begins -/
  offset : Nat
  /-- the offending byte value, or none -/
  byte : Option Byte
  /-- the offending field, or none -/
  field : Option FieldName
  /-- how many bytes the failed read lacked, or none -/
  missing : Option Nat
  deriving DecidableEq, Repr

/-- The state: the record `(cursor, status, error, listing)` of R23, and before it the three parameters of R9, which
R22 calls no state and which no step writes (log 1). `Len` is `buf.length`. -/
structure State where
  /-- `Buf` (R9, R46): the program image, the input space -/
  buf : List Byte
  /-- `SourceName` (R9) -/
  sourceName : String
  /-- `LoadBase` (R9): the 8086 instruction-pointer value of offset 0 -/
  loadBase : Word
  /-- `cursor` (R24): offset of the next instruction's first byte, the program counter (R32) -/
  cursor : Nat
  /-- `status` (R25) -/
  status : Status
  /-- `error` (R26) -/
  error : Option ErrorRecord
  /-- `listing` (R27): the output lines, oldest first -/
  listing : List String
  deriving DecidableEq, Repr

/-- `Len` (R9). -/
abbrev State.len (s : State) : Nat := s.buf.length

/-- `Reset(Buf, SourceName, LoadBase)` (R401) with the values of R34. -/
def State.resetWith (buf : List Byte) (sourceName : String) (loadBase : Word) : State :=
  { buf := buf, sourceName := sourceName, loadBase := loadBase, cursor := 0, status := .running, error := none,
    listing := [headerLine sourceName, directiveLine] }

/-- The block right after reset with nothing loaded: `Len = 0` is legal (R35). A program comes in through the host's
`Reset` (R403, R405; log 3). -/
def State.reset : State := State.resetWith [] Config.sourceName Config.loadBase

/-- Why a step stops the machine. -/
inductive Fault where
  /-- Raised by `step` alone, when `status` is Done or Error: the spec enables no step there (R25, R36, R388). Safe: the
  model goes nowhere where the block goes nowhere (log 4). -/
  | stepNotEnabled
  deriving DecidableEq, Repr

/-- Why the model gives no meaning. -/
inductive Refusal where
  /-- An instruction without a meaning yet, by its mnemonic. Raised by an arm of `exec` only; no arm does. Safe. -/
  | notModelled (mnemonic : String)
  /-- Raised by a meaning given a term of `Instr` that is no instruction (`Instr.wf` fails). No byte sequence decodes to
  one, so no step answers this. Safe (log 10). -/
  | illFormed
  deriving DecidableEq, Repr

end Sys2Proof.Machine
end

