-- ==== Sys2Proof/Machine/Errors.lean ====
section
/-! DEFINITION. How each kind of decode error fills its record (R382 to R385), and the numbers and names of the records'
fields (R381, R384). Taking the error is in Machine/Ops.lean. -/

namespace Sys2Proof.Machine

/-- The numeric code of a kind (R26, R381). -/
def ErrorKind.code : ErrorKind → Nat
  | .unexpectedEndOfStream => 1
  | .unknownOpcode         => 2
  | .invalidField          => 3

/-- The record's `code` (R26). -/
def ErrorRecord.code (e : ErrorRecord) : Nat := e.kind.code

/-- The field's name as R384 spells it. -/
def FieldName.text : FieldName → String
  | .reg             => "reg"
  | .mod             => "mod"
  | .sreg            => "sreg"
  | .aamAadBase      => "aam_aad_base"
  | .prefixByte      => "prefix"
  | .repFollow       => "rep_follow"
  | .segmentOverride => "segment_override"

/-- `UnexpectedEndOfStream` (R382): `offset` is where the failing read begins. -/
def endOfStream (instrStart offset missing : Nat) : ErrorRecord :=
  { kind := .unexpectedEndOfStream, instrStart := instrStart, offset := offset, byte := none, field := none,
    missing := some missing }

/-- `UnknownOpcode` (R383): `offset` is the opcode byte's. -/
def unknownOpcode (instrStart offset : Nat) (b : Byte) : ErrorRecord :=
  { kind := .unknownOpcode, instrStart := instrStart, offset := offset, byte := some b, field := none, missing := none }

/-- `InvalidField` (R384): `offset` and `byte` are those of the byte that holds the bad field. -/
def invalidField (instrStart offset : Nat) (b : Byte) (f : FieldName) : ErrorRecord :=
  { kind := .invalidField, instrStart := instrStart, offset := offset, byte := some b, field := some f, missing := none }

end Sys2Proof.Machine
end

