-- ==== Sys2Proof/Syntax.lean ====
section
/-! DEFINITION. The instructions: one constructor per row of spec/opcode_table.json (R87), 135 in all.

A constructor keeps every field its encoding has, also those the printed text does not show (the `s` bit of a byte
immediate, the length of a displacement), so that `encode` is the inverse of the decoder. The four prefix rows
(R371, R372, R317, R318) take "the instruction that follows" as their operand (log 13). -/

namespace Sys2Proof

/-- An instruction (R18): the whole byte sequence that produces one listing line. -/
inductive Instr where
  -- spec/41_data_transfer.md
  /-- MOV, row MOV_RM_REG, `100010dw mmrrrbbb`, form RM_REG_D (R202). -/
  | movRmReg (d : Dir) (w : Width) (reg : RegField) (x : Rm)
  /-- MOV, row MOV_RM_IMM, `1100011w mm000bbb`, form GRP_RM_IMM_W (R203). -/
  | movRmImm (x : Rm) (im : ImmW)
  /-- MOV, row MOV_REG_IMM, `1011wrrr`, form REG_IMM (R204). -/
  | movRegImm (ri : RegImm)
  /-- MOV, row MOV_ACC_MEM, `1010000w`, form ACC_MEM (R205). -/
  | movAccMem (w : Width) (a : Word)
  /-- MOV, row MOV_MEM_ACC, `1010001w`, form ACC_MEM (R206). -/
  | movMemAcc (w : Width) (a : Word)
  /-- MOV, row MOV_RM_SREG, `10001100 mm0ssbbb`, form RM_SREG (R207). -/
  | movRmSreg (sr : Sreg) (x : Rm)
  /-- MOV, row MOV_SREG_RM, `10001110 mm0ssbbb`, form RM_SREG (R208). -/
  | movSregRm (sr : Sreg) (x : Rm)
  /-- PUSH, row PUSH_RM, `11111111 mm110bbb`, form GRP_RM (R209). -/
  | pushRm (x : Rm)
  /-- PUSH, row PUSH_REG, `01010rrr`, form REG16 (R210). -/
  | pushReg (r : RegField)
  /-- PUSH, row PUSH_SREG, `000ss110`, form SREG (R211). -/
  | pushSreg (sr : Sreg)
  /-- POP, row POP_RM, `10001111 mm000bbb`, form GRP_RM (R212). -/
  | popRm (x : Rm)
  /-- POP, row POP_REG, `01011rrr`, form REG16 (R213). -/
  | popReg (r : RegField)
  /-- POP, row POP_SREG, `000ss111 (ss != 01)`, form SREG (R214). -/
  | popSreg (sr : Sreg)
  /-- XCHG, row XCHG_RM_REG, `1000011w mmrrrbbb`, form RM_REG (R215). -/
  | xchgRmReg (w : Width) (reg : RegField) (x : Rm)
  /-- XCHG, row XCHG_AX_REG, `10010rrr (rrr != 000)`, form REG16 (R216). -/
  | xchgAxReg (r : RegField)
  /-- IN, row IN_PORT, `1110010w`, form PORT8 (R217). -/
  | inPort (w : Width) (p : Byte)
  /-- IN, row IN_DX, `1110110w`, form PORTDX (R218). -/
  | inDx (w : Width)
  /-- OUT, row OUT_PORT, `1110011w`, form PORT8 (R219). -/
  | outPort (w : Width) (p : Byte)
  /-- OUT, row OUT_DX, `1110111w`, form PORTDX (R220). -/
  | outDx (w : Width)
  /-- XLAT, row XLAT, `11010111`, form NONE (R221). -/
  | xlat
  /-- LEA, row LEA, `10001101 mmrrrbbb`, form REG_MEM (R222). -/
  | lea (reg : RegField) (m : Mem)
  /-- LDS, row LDS, `11000101 mmrrrbbb`, form REG_MEM (R223). -/
  | lds (reg : RegField) (m : Mem)
  /-- LES, row LES, `11000100 mmrrrbbb`, form REG_MEM (R224). -/
  | les (reg : RegField) (m : Mem)
  /-- LAHF, row LAHF, `10011111`, form NONE (R225). -/
  | lahf
  /-- SAHF, row SAHF, `10011110`, form NONE (R226). -/
  | sahf
  /-- PUSHF, row PUSHF, `10011100`, form NONE (R227). -/
  | pushf
  /-- POPF, row POPF, `10011101`, form NONE (R228). -/
  | popf
  -- spec/42_arithmetic.md
  /-- ADD, row ADD_RM_REG, `000000dw mmrrrbbb`, form RM_REG_D (R242). -/
  | addRmReg (d : Dir) (w : Width) (reg : RegField) (x : Rm)
  /-- ADD, row ADD_RM_IMM, `100000sw mm000bbb`, form GRP_RM_IMM_SW (R243). -/
  | addRmImm (x : Rm) (im : ImmSW)
  /-- ADD, row ADD_ACC_IMM, `0000010w`, form ACC_IMM (R244). -/
  | addAccImm (im : ImmW)
  /-- ADC, row ADC_RM_REG, `000100dw mmrrrbbb`, form RM_REG_D (R245). -/
  | adcRmReg (d : Dir) (w : Width) (reg : RegField) (x : Rm)
  /-- ADC, row ADC_RM_IMM, `100000sw mm010bbb`, form GRP_RM_IMM_SW (R246). -/
  | adcRmImm (x : Rm) (im : ImmSW)
  /-- ADC, row ADC_ACC_IMM, `0001010w`, form ACC_IMM (R247). -/
  | adcAccImm (im : ImmW)
  /-- SBB, row SBB_RM_REG, `000110dw mmrrrbbb`, form RM_REG_D (R248). -/
  | sbbRmReg (d : Dir) (w : Width) (reg : RegField) (x : Rm)
  /-- SBB, row SBB_RM_IMM, `100000sw mm011bbb`, form GRP_RM_IMM_SW (R249). -/
  | sbbRmImm (x : Rm) (im : ImmSW)
  /-- SBB, row SBB_ACC_IMM, `0001110w`, form ACC_IMM (R250). -/
  | sbbAccImm (im : ImmW)
  /-- SUB, row SUB_RM_REG, `001010dw mmrrrbbb`, form RM_REG_D (R251). -/
  | subRmReg (d : Dir) (w : Width) (reg : RegField) (x : Rm)
  /-- SUB, row SUB_RM_IMM, `100000sw mm101bbb`, form GRP_RM_IMM_SW (R252). -/
  | subRmImm (x : Rm) (im : ImmSW)
  /-- SUB, row SUB_ACC_IMM, `0010110w`, form ACC_IMM (R253). -/
  | subAccImm (im : ImmW)
  /-- CMP, row CMP_RM_REG, `001110dw mmrrrbbb`, form RM_REG_D (R254). -/
  | cmpRmReg (d : Dir) (w : Width) (reg : RegField) (x : Rm)
  /-- CMP, row CMP_RM_IMM, `100000sw mm111bbb`, form GRP_RM_IMM_SW (R255). -/
  | cmpRmImm (x : Rm) (im : ImmSW)
  /-- CMP, row CMP_ACC_IMM, `0011110w`, form ACC_IMM (R256). -/
  | cmpAccImm (im : ImmW)
  /-- INC, row INC_RM, `1111111w mm000bbb`, form GRP_RM (R257). -/
  | incRm (w : Width) (x : Rm)
  /-- INC, row INC_REG, `01000rrr`, form REG16 (R258). -/
  | incReg (r : RegField)
  /-- DEC, row DEC_RM, `1111111w mm001bbb`, form GRP_RM (R259). -/
  | decRm (w : Width) (x : Rm)
  /-- DEC, row DEC_REG, `01001rrr`, form REG16 (R260). -/
  | decReg (r : RegField)
  /-- AAA, row AAA, `00110111`, form NONE (R261). -/
  | aaa
  /-- DAA, row DAA, `00100111`, form NONE (R262). -/
  | daa
  /-- AAS, row AAS, `00111111`, form NONE (R263). -/
  | aas
  /-- DAS, row DAS, `00101111`, form NONE (R264). -/
  | das
  /-- NEG, row NEG, `1111011w mm011bbb`, form GRP_RM (R265). -/
  | neg (w : Width) (x : Rm)
  /-- MUL, row MUL, `1111011w mm100bbb`, form GRP_RM (R266). -/
  | mul (w : Width) (x : Rm)
  /-- IMUL, row IMUL, `1111011w mm101bbb`, form GRP_RM (R267). -/
  | imul (w : Width) (x : Rm)
  /-- DIV, row DIV, `1111011w mm110bbb`, form GRP_RM (R268). -/
  | div (w : Width) (x : Rm)
  /-- IDIV, row IDIV, `1111011w mm111bbb`, form GRP_RM (R269). -/
  | idiv (w : Width) (x : Rm)
  /-- AAM, row AAM, `11010100 00001010`, form AA (R270). -/
  | aam
  /-- AAD, row AAD, `11010101 00001010`, form AA (R271). -/
  | aad
  /-- CBW, row CBW, `10011000`, form NONE (R272). -/
  | cbw
  /-- CWD, row CWD, `10011001`, form NONE (R273). -/
  | cwd
  -- spec/43_logic.md
  /-- OR, row OR_RM_REG, `000010dw mmrrrbbb`, form RM_REG_D (R282). -/
  | orRmReg (d : Dir) (w : Width) (reg : RegField) (x : Rm)
  /-- OR, row OR_RM_IMM, `100000sw mm001bbb`, form GRP_RM_IMM_SW (R283). -/
  | orRmImm (x : Rm) (im : ImmSW)
  /-- OR, row OR_ACC_IMM, `0000110w`, form ACC_IMM (R284). -/
  | orAccImm (im : ImmW)
  /-- AND, row AND_RM_REG, `001000dw mmrrrbbb`, form RM_REG_D (R285). -/
  | andRmReg (d : Dir) (w : Width) (reg : RegField) (x : Rm)
  /-- AND, row AND_RM_IMM, `100000sw mm100bbb`, form GRP_RM_IMM_SW (R286). -/
  | andRmImm (x : Rm) (im : ImmSW)
  /-- AND, row AND_ACC_IMM, `0010010w`, form ACC_IMM (R287). -/
  | andAccImm (im : ImmW)
  /-- XOR, row XOR_RM_REG, `001100dw mmrrrbbb`, form RM_REG_D (R288). -/
  | xorRmReg (d : Dir) (w : Width) (reg : RegField) (x : Rm)
  /-- XOR, row XOR_RM_IMM, `100000sw mm110bbb`, form GRP_RM_IMM_SW (R289). -/
  | xorRmImm (x : Rm) (im : ImmSW)
  /-- XOR, row XOR_ACC_IMM, `0011010w`, form ACC_IMM (R290). -/
  | xorAccImm (im : ImmW)
  /-- NOT, row NOT, `1111011w mm010bbb`, form GRP_RM (R291). -/
  | not (w : Width) (x : Rm)
  /-- ROL, row ROL, `110100vw mm000bbb`, form GRP_SHIFT (R292). -/
  | rol (v : ShiftCount) (w : Width) (x : Rm)
  /-- ROR, row ROR, `110100vw mm001bbb`, form GRP_SHIFT (R293). -/
  | ror (v : ShiftCount) (w : Width) (x : Rm)
  /-- RCL, row RCL, `110100vw mm010bbb`, form GRP_SHIFT (R294). -/
  | rcl (v : ShiftCount) (w : Width) (x : Rm)
  /-- RCR, row RCR, `110100vw mm011bbb`, form GRP_SHIFT (R295). -/
  | rcr (v : ShiftCount) (w : Width) (x : Rm)
  /-- SHL, row SHL, `110100vw mm100bbb`, form GRP_SHIFT (R296). -/
  | shl (v : ShiftCount) (w : Width) (x : Rm)
  /-- SHR, row SHR, `110100vw mm101bbb`, form GRP_SHIFT (R297). -/
  | shr (v : ShiftCount) (w : Width) (x : Rm)
  /-- SAR, row SAR, `110100vw mm111bbb`, form GRP_SHIFT (R298). -/
  | sar (v : ShiftCount) (w : Width) (x : Rm)
  /-- TEST, row TEST_RM_REG, `1000010w mmrrrbbb`, form RM_REG (R299). -/
  | testRmReg (w : Width) (reg : RegField) (x : Rm)
  /-- TEST, row TEST_RM_IMM, `1111011w mm000bbb`, form GRP_RM_IMM_W (R300). -/
  | testRmImm (x : Rm) (im : ImmW)
  /-- TEST, row TEST_ACC_IMM, `1010100w`, form ACC_IMM (R301). -/
  | testAccImm (im : ImmW)
  -- spec/44_string.md
  /-- MOVS, row MOVS, `1010010w`, form STR (R312). -/
  | movs (w : Width)
  /-- CMPS, row CMPS, `1010011w`, form STR (R313). -/
  | cmps (w : Width)
  /-- SCAS, row SCAS, `1010111w`, form STR (R314). -/
  | scas (w : Width)
  /-- LODS, row LODS, `1010110w`, form STR (R315). -/
  | lods (w : Width)
  /-- STOS, row STOS, `1010101w`, form STR (R316). -/
  | stos (w : Width)
  /-- REP, row REP, `11110011`, form PFX_REP (R317). -/
  | rep (body : Instr)
  /-- REPNE, row REPNE, `11110010`, form PFX_REP (R318). -/
  | repne (body : Instr)
  -- spec/45_control_transfer.md
  /-- CALL, row CALL_NEAR, `11101000`, form REL16 (R322). -/
  | callNear (disp : Word)
  /-- CALL, row CALL_RM, `11111111 mm010bbb`, form GRP_RM (R323). -/
  | callRm (x : Rm)
  /-- CALL, row CALL_FAR, `10011010`, form FARPTR (R324). -/
  | callFar (off : Word) (sgm : Word)
  /-- CALL, row CALL_FAR_MEM, `11111111 mm011bbb (mm != 11)`, form GRP_RM (R325). -/
  | callFarMem (m : Mem)
  /-- JMP, row JMP_NEAR, `11101001`, form REL16 (R326). -/
  | jmpNear (disp : Word)
  /-- JMP, row JMP_SHORT, `11101011`, form REL8 (R327). -/
  | jmpShort (disp : Byte)
  /-- JMP, row JMP_RM, `11111111 mm100bbb`, form GRP_RM (R328). -/
  | jmpRm (x : Rm)
  /-- JMP, row JMP_FAR, `11101010`, form FARPTR (R329). -/
  | jmpFar (off : Word) (sgm : Word)
  /-- JMP, row JMP_FAR_MEM, `11111111 mm101bbb (mm != 11)`, form GRP_RM (R330). -/
  | jmpFarMem (m : Mem)
  /-- RET, row RET, `11000011`, form NONE (R331). -/
  | ret
  /-- RET, row RET_IMM, `11000010`, form IMM16 (R332). -/
  | retImm (n : Word)
  /-- RETF, row RETF, `11001011`, form NONE (R333). -/
  | retf
  /-- RETF, row RETF_IMM, `11001010`, form IMM16 (R334). -/
  | retfImm (n : Word)
  /-- JO, row JO, `01110000`, form REL8 (R335). -/
  | jo (disp : Byte)
  /-- JNO, row JNO, `01110001`, form REL8 (R336). -/
  | jno (disp : Byte)
  /-- JB, row JB, `01110010`, form REL8 (R337). -/
  | jb (disp : Byte)
  /-- JNB, row JNB, `01110011`, form REL8 (R338). -/
  | jnb (disp : Byte)
  /-- JZ, row JZ, `01110100`, form REL8 (R339). -/
  | jz (disp : Byte)
  /-- JNZ, row JNZ, `01110101`, form REL8 (R340). -/
  | jnz (disp : Byte)
  /-- JBE, row JBE, `01110110`, form REL8 (R341). -/
  | jbe (disp : Byte)
  /-- JA, row JA, `01110111`, form REL8 (R342). -/
  | ja (disp : Byte)
  /-- JS, row JS, `01111000`, form REL8 (R343). -/
  | js (disp : Byte)
  /-- JNS, row JNS, `01111001`, form REL8 (R344). -/
  | jns (disp : Byte)
  /-- JP, row JP, `01111010`, form REL8 (R345). -/
  | jp (disp : Byte)
  /-- JNP, row JNP, `01111011`, form REL8 (R346). -/
  | jnp (disp : Byte)
  /-- JL, row JL, `01111100`, form REL8 (R347). -/
  | jl (disp : Byte)
  /-- JNL, row JNL, `01111101`, form REL8 (R348). -/
  | jnl (disp : Byte)
  /-- JLE, row JLE, `01111110`, form REL8 (R349). -/
  | jle (disp : Byte)
  /-- JG, row JG, `01111111`, form REL8 (R350). -/
  | jg (disp : Byte)
  /-- LOOP, row LOOP, `11100010`, form REL8 (R351). -/
  | loop (disp : Byte)
  /-- LOOPZ, row LOOPZ, `11100001`, form REL8 (R352). -/
  | loopz (disp : Byte)
  /-- LOOPNZ, row LOOPNZ, `11100000`, form REL8 (R353). -/
  | loopnz (disp : Byte)
  /-- JCXZ, row JCXZ, `11100011`, form REL8 (R354). -/
  | jcxz (disp : Byte)
  /-- INT, row INT, `11001101`, form IMM8 (R355). -/
  | int (n : Byte)
  /-- INT3, row INT3, `11001100`, form NONE (R356). -/
  | int3
  /-- INTO, row INTO, `11001110`, form NONE (R357). -/
  | into
  /-- IRET, row IRET, `11001111`, form NONE (R358). -/
  | iret
  -- spec/46_processor_control.md
  /-- CLC, row CLC, `11111000`, form NONE (R362). -/
  | clc
  /-- CMC, row CMC, `11110101`, form NONE (R363). -/
  | cmc
  /-- STC, row STC, `11111001`, form NONE (R364). -/
  | stc
  /-- CLD, row CLD, `11111100`, form NONE (R365). -/
  | cld
  /-- STD, row STD, `11111101`, form NONE (R366). -/
  | std
  /-- CLI, row CLI, `11111010`, form NONE (R367). -/
  | cli
  /-- STI, row STI, `11111011`, form NONE (R368). -/
  | sti
  /-- HLT, row HLT, `11110100`, form NONE (R369). -/
  | hlt
  /-- WAIT, row WAIT, `10011011`, form NONE (R370). -/
  | wait
  /-- LOCK, row LOCK, `11110000`, form PFX_LOCK (R371). -/
  | lock (body : Instr)
  /-- SEG, row SEG, `001ss110`, form PFX_SEG (R372). -/
  | seg (sr : Sreg) (body : Instr)
  /-- NOP, row NOP, `10010000`, form NONE (R373). -/
  | nop
  deriving DecidableEq, Repr

end Sys2Proof
end

