-- ==== Sys2Proof/WellFormed.lean ====
section
/-! DEFINITION. Which terms of `Instr` are instructions: the terms some byte sequence the block accepts decodes to.

Field values with a defined meaning only (R81, R74), the prefix grammar (R83), and no two spellings of one encoding
(R73, R78, R82). -/

namespace Sys2Proof

/-- `mod = 00` with base `BP` alone is no memory operand: that combination is the direct address (R73, R126). -/
def Mem.wf : Mem → Bool
  | .base .bp => false
  | .base _ | .direct _ | .disp8 _ _ | .disp16 _ _ => true

/-- A register operand is always well formed; a memory operand as `Mem.wf` says. -/
def Rm.wf : Rm → Bool
  | .reg _ => true
  | .mem m => m.wf

/-- `mod ≠ 11`. -/
def Rm.isMem : Rm → Bool
  | .reg _ => false
  | .mem _ => true

/-- The instruction begins with a prefix byte (R18). -/
def Instr.isPrefixed : Instr → Bool
  | .lock _ | .seg _ _ | .rep _ | .repne _ => true
  | .movRmReg _ _ _ _ | .movRmImm _ _ | .movRegImm _ | .movAccMem _ _ | .movMemAcc _ _ | .movRmSreg _ _
  | .movSregRm _ _ | .pushRm _ | .pushReg _ | .pushSreg _ | .popRm _ | .popReg _ | .popSreg _
  | .xchgRmReg _ _ _ | .xchgAxReg _ | .inPort _ _ | .inDx _ | .outPort _ _ | .outDx _ | .xlat | .lea _ _
  | .lds _ _ | .les _ _ | .lahf | .sahf | .pushf | .popf | .addRmReg _ _ _ _ | .addRmImm _ _ | .addAccImm _
  | .adcRmReg _ _ _ _ | .adcRmImm _ _ | .adcAccImm _ | .sbbRmReg _ _ _ _ | .sbbRmImm _ _ | .sbbAccImm _
  | .subRmReg _ _ _ _ | .subRmImm _ _ | .subAccImm _ | .cmpRmReg _ _ _ _ | .cmpRmImm _ _ | .cmpAccImm _
  | .incRm _ _ | .incReg _ | .decRm _ _ | .decReg _ | .aaa | .daa | .aas | .das | .neg _ _ | .mul _ _
  | .imul _ _ | .div _ _ | .idiv _ _ | .aam | .aad | .cbw | .cwd | .orRmReg _ _ _ _ | .orRmImm _ _
  | .orAccImm _ | .andRmReg _ _ _ _ | .andRmImm _ _ | .andAccImm _ | .xorRmReg _ _ _ _ | .xorRmImm _ _
  | .xorAccImm _ | .not _ _ | .rol _ _ _ | .ror _ _ _ | .rcl _ _ _ | .rcr _ _ _ | .shl _ _ _ | .shr _ _ _
  | .sar _ _ _ | .testRmReg _ _ _ | .testRmImm _ _ | .testAccImm _ | .movs _ | .cmps _ | .scas _ | .lods _
  | .stos _ | .callNear _ | .callRm _ | .callFar _ _ | .callFarMem _ | .jmpNear _ | .jmpShort _ | .jmpRm _
  | .jmpFar _ _ | .jmpFarMem _ | .ret | .retImm _ | .retf | .retfImm _ | .jo _ | .jno _ | .jb _ | .jnb _
  | .jz _ | .jnz _ | .jbe _ | .ja _ | .js _ | .jns _ | .jp _ | .jnp _ | .jl _ | .jnl _ | .jle _ | .jg _
  | .loop _ | .loopz _ | .loopnz _ | .jcxz _ | .int _ | .int3 | .into | .iret | .clc | .cmc | .stc | .cld
  | .std | .cli | .sti | .hlt | .wait | .nop => false

/-- The instruction begins with LOCK. -/
def Instr.isLock : Instr → Bool
  | .lock _ => true
  | .movRmReg _ _ _ _ | .movRmImm _ _ | .movRegImm _ | .movAccMem _ _ | .movMemAcc _ _ | .movRmSreg _ _
  | .movSregRm _ _ | .pushRm _ | .pushReg _ | .pushSreg _ | .popRm _ | .popReg _ | .popSreg _
  | .xchgRmReg _ _ _ | .xchgAxReg _ | .inPort _ _ | .inDx _ | .outPort _ _ | .outDx _ | .xlat | .lea _ _
  | .lds _ _ | .les _ _ | .lahf | .sahf | .pushf | .popf | .addRmReg _ _ _ _ | .addRmImm _ _ | .addAccImm _
  | .adcRmReg _ _ _ _ | .adcRmImm _ _ | .adcAccImm _ | .sbbRmReg _ _ _ _ | .sbbRmImm _ _ | .sbbAccImm _
  | .subRmReg _ _ _ _ | .subRmImm _ _ | .subAccImm _ | .cmpRmReg _ _ _ _ | .cmpRmImm _ _ | .cmpAccImm _
  | .incRm _ _ | .incReg _ | .decRm _ _ | .decReg _ | .aaa | .daa | .aas | .das | .neg _ _ | .mul _ _
  | .imul _ _ | .div _ _ | .idiv _ _ | .aam | .aad | .cbw | .cwd | .orRmReg _ _ _ _ | .orRmImm _ _
  | .orAccImm _ | .andRmReg _ _ _ _ | .andRmImm _ _ | .andAccImm _ | .xorRmReg _ _ _ _ | .xorRmImm _ _
  | .xorAccImm _ | .not _ _ | .rol _ _ _ | .ror _ _ _ | .rcl _ _ _ | .rcr _ _ _ | .shl _ _ _ | .shr _ _ _
  | .sar _ _ _ | .testRmReg _ _ _ | .testRmImm _ _ | .testAccImm _ | .movs _ | .cmps _ | .scas _ | .lods _
  | .stos _ | .rep _ | .repne _ | .callNear _ | .callRm _ | .callFar _ _ | .callFarMem _ | .jmpNear _
  | .jmpShort _ | .jmpRm _ | .jmpFar _ _ | .jmpFarMem _ | .ret | .retImm _ | .retf | .retfImm _ | .jo _
  | .jno _ | .jb _ | .jnb _ | .jz _ | .jnz _ | .jbe _ | .ja _ | .js _ | .jns _ | .jp _ | .jnp _ | .jl _
  | .jnl _ | .jle _ | .jg _ | .loop _ | .loopz _ | .loopnz _ | .jcxz _ | .int _ | .int3 | .into | .iret
  | .clc | .cmc | .stc | .cld | .std | .cli | .sti | .hlt | .wait | .seg _ _ | .nop => false

/-- The string opcodes 0xA4 to 0xA7 and 0xAA to 0xAF, the only ones a repeat prefix may precede (R83, R113). -/
def Instr.isStringOp : Instr → Bool
  | .movs _ | .cmps _ | .scas _ | .lods _ | .stos _ => true
  | .movRmReg _ _ _ _ | .movRmImm _ _ | .movRegImm _ | .movAccMem _ _ | .movMemAcc _ _ | .movRmSreg _ _
  | .movSregRm _ _ | .pushRm _ | .pushReg _ | .pushSreg _ | .popRm _ | .popReg _ | .popSreg _
  | .xchgRmReg _ _ _ | .xchgAxReg _ | .inPort _ _ | .inDx _ | .outPort _ _ | .outDx _ | .xlat | .lea _ _
  | .lds _ _ | .les _ _ | .lahf | .sahf | .pushf | .popf | .addRmReg _ _ _ _ | .addRmImm _ _ | .addAccImm _
  | .adcRmReg _ _ _ _ | .adcRmImm _ _ | .adcAccImm _ | .sbbRmReg _ _ _ _ | .sbbRmImm _ _ | .sbbAccImm _
  | .subRmReg _ _ _ _ | .subRmImm _ _ | .subAccImm _ | .cmpRmReg _ _ _ _ | .cmpRmImm _ _ | .cmpAccImm _
  | .incRm _ _ | .incReg _ | .decRm _ _ | .decReg _ | .aaa | .daa | .aas | .das | .neg _ _ | .mul _ _
  | .imul _ _ | .div _ _ | .idiv _ _ | .aam | .aad | .cbw | .cwd | .orRmReg _ _ _ _ | .orRmImm _ _
  | .orAccImm _ | .andRmReg _ _ _ _ | .andRmImm _ _ | .andAccImm _ | .xorRmReg _ _ _ _ | .xorRmImm _ _
  | .xorAccImm _ | .not _ _ | .rol _ _ _ | .ror _ _ _ | .rcl _ _ _ | .rcr _ _ _ | .shl _ _ _ | .shr _ _ _
  | .sar _ _ _ | .testRmReg _ _ _ | .testRmImm _ _ | .testAccImm _ | .rep _ | .repne _ | .callNear _
  | .callRm _ | .callFar _ _ | .callFarMem _ | .jmpNear _ | .jmpShort _ | .jmpRm _ | .jmpFar _ _
  | .jmpFarMem _ | .ret | .retImm _ | .retf | .retfImm _ | .jo _ | .jno _ | .jb _ | .jnb _ | .jz _ | .jnz _
  | .jbe _ | .ja _ | .js _ | .jns _ | .jp _ | .jnp _ | .jl _ | .jnl _ | .jle _ | .jg _ | .loop _ | .loopz _
  | .loopnz _ | .jcxz _ | .int _ | .int3 | .into | .iret | .clc | .cmc | .stc | .cld | .std | .cli | .sti
  | .hlt | .wait | .lock _ | .seg _ _ | .nop => false

/-- The instruction has an explicit memory operand: a ModRM form with `mod ≠ 11`, or form ACC_MEM (R122, D11). Of a
prefixed instruction, whether the byte after the prefix starts one (never: R83 allows no prefix after SEG). -/
def Instr.hasMem : Instr → Bool
  | .movRmReg _ _ _ x | .movRmImm x _ | .movRmSreg _ x | .movSregRm _ x | .pushRm x | .popRm x
  | .xchgRmReg _ _ x | .addRmReg _ _ _ x | .addRmImm x _ | .adcRmReg _ _ _ x | .adcRmImm x _
  | .sbbRmReg _ _ _ x | .sbbRmImm x _ | .subRmReg _ _ _ x | .subRmImm x _ | .cmpRmReg _ _ _ x | .cmpRmImm x _
  | .incRm _ x | .decRm _ x | .neg _ x | .mul _ x | .imul _ x | .div _ x | .idiv _ x | .orRmReg _ _ _ x
  | .orRmImm x _ | .andRmReg _ _ _ x | .andRmImm x _ | .xorRmReg _ _ _ x | .xorRmImm x _ | .not _ x
  | .rol _ _ x | .ror _ _ x | .rcl _ _ x | .rcr _ _ x | .shl _ _ x | .shr _ _ x | .sar _ _ x
  | .testRmReg _ _ x | .testRmImm x _ | .callRm x | .jmpRm x => x.isMem
  | .lea _ _ | .lds _ _ | .les _ _ | .callFarMem _ | .jmpFarMem _ | .movAccMem _ _ | .movMemAcc _ _ => true
  | .movRegImm _ | .pushReg _ | .pushSreg _ | .popReg _ | .popSreg _ | .xchgAxReg _ | .inPort _ _ | .inDx _
  | .outPort _ _ | .outDx _ | .xlat | .lahf | .sahf | .pushf | .popf | .addAccImm _ | .adcAccImm _
  | .sbbAccImm _ | .subAccImm _ | .cmpAccImm _ | .incReg _ | .decReg _ | .aaa | .daa | .aas | .das | .aam
  | .aad | .cbw | .cwd | .orAccImm _ | .andAccImm _ | .xorAccImm _ | .testAccImm _ | .movs _ | .cmps _
  | .scas _ | .lods _ | .stos _ | .callNear _ | .callFar _ _ | .jmpNear _ | .jmpShort _ | .jmpFar _ _ | .ret
  | .retImm _ | .retf | .retfImm _ | .jo _ | .jno _ | .jb _ | .jnb _ | .jz _ | .jnz _ | .jbe _ | .ja _
  | .js _ | .jns _ | .jp _ | .jnp _ | .jl _ | .jnl _ | .jle _ | .jg _ | .loop _ | .loopz _ | .loopnz _
  | .jcxz _ | .int _ | .int3 | .into | .iret | .clc | .cmc | .stc | .cld | .std | .cli | .sti | .hlt | .wait
  | .nop | .rep _ | .repne _ | .lock _ | .seg _ _ => false

/-- The check. `POP CS` is refused (R80), 0x90 is NOP and not `XCHG AX, AX` (R82), and prefixes follow the grammar
`[LOCK] ( [SEG] Body | REPP StringOp )` with SEG only before an explicit memory operand (R83). -/
def Instr.wf : Instr → Bool
  | .lock body => body.wf && !body.isLock
  | .seg _ body => body.wf && !body.isPrefixed && body.hasMem
  | .rep body | .repne body => body.wf && body.isStringOp
  | .popSreg sr => decide (sr ≠ .cs)
  | .xchgAxReg r => decide (r ≠ 0)
  | .movRmReg _ _ _ x | .movRmImm x _ | .movRmSreg _ x | .movSregRm _ x | .pushRm x | .popRm x
  | .xchgRmReg _ _ x | .addRmReg _ _ _ x | .addRmImm x _ | .adcRmReg _ _ _ x | .adcRmImm x _
  | .sbbRmReg _ _ _ x | .sbbRmImm x _ | .subRmReg _ _ _ x | .subRmImm x _ | .cmpRmReg _ _ _ x | .cmpRmImm x _
  | .incRm _ x | .decRm _ x | .neg _ x | .mul _ x | .imul _ x | .div _ x | .idiv _ x | .orRmReg _ _ _ x
  | .orRmImm x _ | .andRmReg _ _ _ x | .andRmImm x _ | .xorRmReg _ _ _ x | .xorRmImm x _ | .not _ x
  | .rol _ _ x | .ror _ _ x | .rcl _ _ x | .rcr _ _ x | .shl _ _ x | .shr _ _ x | .sar _ _ x
  | .testRmReg _ _ x | .testRmImm x _ | .callRm x | .jmpRm x => x.wf
  | .lea _ m | .lds _ m | .les _ m | .callFarMem m | .jmpFarMem m => m.wf
  | .movRegImm _ | .movAccMem _ _ | .movMemAcc _ _ | .pushReg _ | .pushSreg _ | .popReg _ | .inPort _ _
  | .inDx _ | .outPort _ _ | .outDx _ | .xlat | .lahf | .sahf | .pushf | .popf | .addAccImm _ | .adcAccImm _
  | .sbbAccImm _ | .subAccImm _ | .cmpAccImm _ | .incReg _ | .decReg _ | .aaa | .daa | .aas | .das | .aam
  | .aad | .cbw | .cwd | .orAccImm _ | .andAccImm _ | .xorAccImm _ | .testAccImm _ | .movs _ | .cmps _
  | .scas _ | .lods _ | .stos _ | .callNear _ | .callFar _ _ | .jmpNear _ | .jmpShort _ | .jmpFar _ _ | .ret
  | .retImm _ | .retf | .retfImm _ | .jo _ | .jno _ | .jb _ | .jnb _ | .jz _ | .jnz _ | .jbe _ | .ja _
  | .js _ | .jns _ | .jp _ | .jnp _ | .jl _ | .jnl _ | .jle _ | .jg _ | .loop _ | .loopz _ | .loopnz _
  | .jcxz _ | .int _ | .int3 | .into | .iret | .clc | .cmc | .stc | .cld | .std | .cli | .sti | .hlt | .wait
  | .nop => true

/-- A well-formed instruction. -/
abbrev WellFormed (i : Instr) : Prop := i.wf = true

end Sys2Proof
end

