-- ==== Sys2Proof/Decode.lean ====
section
/-! DEFINITION. The byte cursor, the field extractor, the dispatcher with its extension-group resolver, the form routines
(the first four of the block's components, R2), and after them the encoder.

`decodeOne` is `DecodeOne` of R112 up to `Render`: it answers the instruction that begins at an offset together with the
offset after it, or the record of the first check that fails, in the read order of R132. It reads nothing but the buffer. -/

namespace Sys2Proof

open Machine

/-! ## Fields (R68, R69) -/

/-- `w = b[0]`. -/
def fieldW (b : Byte) : Width := if b.getLsbD 0 then .word else .byte

/-- `d = b[1]`. -/
def fieldD (b : Byte) : Dir := if b.getLsbD 1 then .regFirst else .rmFirst

/-- `s = b[1]`, the sign-extension bit of GRP1. -/
def fieldS (b : Byte) : Bool := b.getLsbD 1

/-- `v = b[1]`, the count source of GRP2. -/
def fieldV (b : Byte) : ShiftCount := if b.getLsbD 1 then .cl else .one

/-- `z = b[0]` of a repeat prefix: 1 selects REP. -/
def fieldZ (b : Byte) : RepKind := if b.getLsbD 0 then .rep else .repne

/-- `W = b[3]`, the width bit of form REG_IMM. -/
def fieldRegImmW (b : Byte) : Width := if b.getLsbD 3 then .word else .byte

/-- `r = b[2:0]`. -/
def fieldR (b : Byte) : RegField := b.extractLsb' 0 3

/-- Entry `i` of table `SREG` (R72). -/
def Sreg.ofBits (i : BitVec 2) : Sreg :=
  if i = 0 then .es else if i = 1 then .cs else if i = 2 then .ss else .ds

/-- `sr = b[4:3]`. -/
def fieldSr (b : Byte) : Sreg := Sreg.ofBits (b.extractLsb' 3 2)

/-- Entry `rm` of table `EA` (R73). -/
def EaBase.ofBits (rm : BitVec 3) : EaBase :=
  if rm = 0 then .bxSi else if rm = 1 then .bxDi else if rm = 2 then .bpSi else if rm = 3 then .bpDi
  else if rm = 4 then .si else if rm = 5 then .di else if rm = 6 then .bp else .bx

/-- The ModRM byte's fields with the byte itself and its offset, which the validity checks report (R69, R120). -/
structure ModRM where
  mod : BitVec 2
  reg : BitVec 3
  rm  : BitVec 3
  byte : Byte
  off : Nat
  deriving DecidableEq, Repr

/-- `mod = m[7:6]`, `reg = m[5:3]`, `rm = m[2:0]` (R69). -/
def ModRM.of (m : Byte) (off : Nat) : ModRM :=
  { mod := m.extractLsb' 6 2, reg := m.extractLsb' 3 3, rm := m.extractLsb' 0 3, byte := m, off := off }

/-- `mod = 11`. -/
def ModRM.isReg (m : ModRM) : Bool := m.mod == 3

/-! ## The byte cursor (R48, R49, R50) -/

/-- The byte cursor of one instruction: a forward-only view of the buffer (R2). `start` is `instr_start`, `pos` the local
read position `c` (R28), `rest` the bytes of the buffer from `pos` on. -/
structure Cursor where
  start : Nat
  pos   : Nat
  rest  : List Byte
  deriving DecidableEq, Repr

/-- The cursor at the first byte of the instruction at offset `start`: `c <- start` (R112). -/
def Cursor.at (buf : List Byte) (start : Nat) : Cursor := { start := start, pos := start, rest := buf.drop start }

/-- The little-endian word of two bytes: `hi ++ lo` (R49, R50). -/
def wordOf (lo hi : Byte) : Word := hi ++ lo

/-- `ReadByte()` (R48). -/
def Cursor.readByte (c : Cursor) : Except ErrorRecord (Byte × Cursor) :=
  match c.rest with
  | []     => .error (endOfStream c.start c.pos 1)
  | b :: r => .ok (b, { c with pos := c.pos + 1, rest := r })

/-- `ReadWord()` (R49): both bytes or neither; `missing` is how many of the two are not there. -/
def Cursor.readWord (c : Cursor) : Except ErrorRecord (Word × Cursor) :=
  match c.rest with
  | []           => .error (endOfStream c.start c.pos 2)
  | [_]          => .error (endOfStream c.start c.pos 1)
  | lo :: hi :: r => .ok (wordOf lo hi, { c with pos := c.pos + 2, rest := r })

/-- The ModRM read of the form routines: `mo <- c; m <- ReadByte()` (R120, R136). -/
def Cursor.readModRM (c : Cursor) : Except ErrorRecord (ModRM × Cursor) := do
  let (m, c') ← c.readByte
  return (ModRM.of m c.pos, c')

/-! ## The prefix phase (R113) -/

/-- The segment latch (R28): the register, and where the prefix stood (`seg_off`, `seg_byte`). -/
structure SegLatch where
  reg  : Sreg
  off  : Nat
  byte : Byte
  deriving DecidableEq, Repr

/-- The prefix latches of one instruction (R28). -/
structure Prefixes where
  lock : Bool
  seg  : Option SegLatch
  rep  : Option RepKind
  deriving DecidableEq, Repr

/-- The segment-override bytes (R115). -/
def isSegByte (b : Byte) : Bool := b == 0x26 || b == 0x2E || b == 0x36 || b == 0x3E

/-- The repeat bytes (R116). -/
def isRepByte (b : Byte) : Bool := b == 0xF2 || b == 0xF3

/-- Any prefix byte (R18). -/
def isPrefixByte (b : Byte) : Bool := b == 0xF0 || isRepByte b || isSegByte b

/-- The string opcodes a repeat prefix may precede (R113). -/
def isStringByte (b : Byte) : Bool :=
  b == 0xA4 || b == 0xA5 || b == 0xA6 || b == 0xA7 || b == 0xAA || b == 0xAB || b == 0xAC || b == 0xAD || b == 0xAE ||
  b == 0xAF

/-- A byte and the offset it stands at. -/
structure Located where
  byte : Byte
  off  : Nat
  deriving DecidableEq, Repr

/-- `o <- c; b <- ReadByte()`. -/
def Cursor.readLocated (c : Cursor) : Except ErrorRecord (Located × Cursor) := do
  let (b, c') ← c.readByte
  return (⟨b, c.pos⟩, c')

/-- `raise InvalidField` at a located byte. -/
def Located.invalid (x : Located) (c : Cursor) (f : FieldName) : ErrorRecord := invalidField c.start x.off x.byte f

/-- The LOCK part of `Prefixes()` (R113, R114): whether LOCK was read, and the byte after it. -/
def lockPhase (c : Cursor) : Except ErrorRecord ((Bool × Located) × Cursor) := do
  let (x, c) ← c.readLocated
  if x.byte = 0xF0 then
    let (y, c) ← c.readLocated
    if y.byte = 0xF0 then .error (y.invalid c .prefixByte) else .ok ((true, y), c)
  else .ok ((false, x), c)

/-- The segment part of `Prefixes()` (R113, R115). -/
def segPhase (x : Located) (c : Cursor) : Except ErrorRecord ((Option SegLatch × Located) × Cursor) :=
  if isSegByte x.byte then do
    let (y, c) ← c.readLocated
    if isPrefixByte y.byte then .error (y.invalid c .prefixByte) else .ok ((some ⟨fieldSr x.byte, x.off, x.byte⟩, y), c)
  else .ok ((none, x), c)

/-- The repeat part of `Prefixes()` (R113, R116). -/
def repPhase (x : Located) (c : Cursor) : Except ErrorRecord ((Option RepKind × Located) × Cursor) :=
  if isRepByte x.byte then do
    let (y, c) ← c.readLocated
    if isStringByte y.byte then .ok ((some (fieldZ x.byte), y), c) else .error (y.invalid c .repFollow)
  else .ok ((none, x), c)

/-- `Prefixes()` (R113): the latches, and the opcode byte with its offset. -/
def prefixPhase (c : Cursor) : Except ErrorRecord ((Prefixes × Located) × Cursor) := do
  let ((l, x), c) ← lockPhase c
  let ((sg, x), c) ← segPhase x c
  let ((rp, x), c) ← repPhase x c
  return ((⟨l, sg, rp⟩, x), c)

/-- The instruction with its prefixes: the prefix rows hold the instruction that follows (log 13). -/
def Prefixes.wrap (p : Prefixes) (i : Instr) : Instr :=
  let i := match p.rep with
    | none        => i
    | some .rep   => .rep i
    | some .repne => .repne i
  let i := match p.seg with
    | none   => i
    | some l => .seg l.reg i
  if p.lock then .lock i else i

/-- `SegCheck(has_mem)` (R122). -/
def segCheck (c : Cursor) (sg : Option SegLatch) (hasMem : Bool) : Except ErrorRecord Unit :=
  match sg with
  | none   => .ok ()
  | some l => if hasMem then .ok () else .error (invalidField c.start l.off l.byte .segmentOverride)

/-! ## The dispatch table (R78) and the group tables (R74) -/

/-- The source's instruction shapes (R17) and the spec's extra one (R19). No text depends on a row's shape; it decides which
decode routine runs. -/
inductive Shape where
  | regMemToFromReg
  | immediateToRegMem
  | immediateToAccumulator
  | immediateToRegister
  | shortJump
  | nearProcLabel
  | farProcLabel
  | registerOnly
  | segmentRegisterOnly
  | stringRepeat
  | noOperand
  | other
  deriving DecidableEq, Repr

/-- The extension groups (R74). -/
inductive Group where
  | grp1
  | grp2
  | grp3
  | grp4
  | grp5
  | grp8f
  | grpc6
  deriving DecidableEq, Repr

/-- The forms (R77) of shape RegMemToFromReg with the row's constructor: `rmRegD` to `rmSreg` take the ModRM reg field as an
operand, `rm` to `shift` are rows of a group. `rm` has the width `w` of the opcode byte, `rm16` is always 16 bits wide
(R125), and the operand of `regMem` and `mem16` must be memory (R121). -/
inductive RegMemForm where
  | rmRegD (mk : Dir → Width → RegField → Rm → Instr)
  | rmReg  (mk : Width → RegField → Rm → Instr)
  | regMem (mk : RegField → Mem → Instr)
  | rmSreg (mk : Sreg → Rm → Instr)
  | rm     (mk : Width → Rm → Instr)
  | rm16   (mk : Rm → Instr)
  | mem16  (mk : Mem → Instr)
  | shift  (mk : ShiftCount → Width → Rm → Instr)

/-- The forms of shape ImmediateToRegMem, all of them rows of a group. -/
inductive ImmRegMemForm where
  | rmImmSW (mk : Rm → ImmSW → Instr)
  | rmImmW  (mk : Rm → ImmW → Instr)

/-- The forms of shape ImmediateToAccumulator. -/
inductive AccForm where
  | accImm (mk : ImmW → Instr)
  | accMem (mk : Width → Word → Instr)
  | port8  (mk : Width → Byte → Instr)

/-- The forms of shape NoOperand. -/
inductive NoOperandForm where
  | portDx (mk : Width → Instr)
  | str    (mk : Width → Instr)
  | bare   (i : Instr)

/-- The forms of shape Other, the prefix rows apart. -/
inductive OtherForm where
  | imm8  (mk : Byte → Instr)
  | imm16 (mk : Word → Instr)
  | aa    (i : Instr)

/-- A row of a group (R74): its shape, and the form the resolved row has (R120). -/
inductive GroupRow where
  | regMemToFromReg   (f : RegMemForm)
  | immediateToRegMem (f : ImmRegMemForm)

/-- What a dispatch entry selects (R78): the row's shape (R19), its form where the shape has several (R77), and its
constructor; a group, whose rows bring their own shapes; a prefix with its row's shape; or the refusal, which has none. -/
inductive Target where
  | refuse
  | prefixByte             (sh : Shape)
  | group                  (g : Group)
  | regMemToFromReg        (f : RegMemForm)
  | immediateToAccumulator (f : AccForm)
  | immediateToRegister    (mk : RegImm → Instr)
  | shortJump              (mk : Byte → Instr)
  | nearProcLabel          (mk : Word → Instr)
  | farProcLabel           (mk : Word → Word → Instr)
  | registerOnly           (mk : RegField → Instr)
  | segmentRegisterOnly    (mk : Sreg → Instr)
  | noOperand              (f : NoOperandForm)
  | other                  (f : OtherForm)

/-- A dispatch rule (R78): "each rule is a (mask, pattern, shape, base_mnemonic) tuple". The target holds the last two. -/
structure Entry where
  pat    : Byte
  mask   : Byte
  target : Target

/-- `b & mask = match` (R78). -/
def Entry.hits (e : Entry) (b : Byte) : Bool := b &&& e.mask == e.pat

/-- Entries with 8 mask bits (R78). -/
def entries8a : List Entry :=
  [ ⟨0x0f#8, 0xFF#8, .refuse⟩,
    ⟨0x27#8, 0xFF#8, .noOperand (.bare .daa)⟩,
    ⟨0x2f#8, 0xFF#8, .noOperand (.bare .das)⟩,
    ⟨0x37#8, 0xFF#8, .noOperand (.bare .aaa)⟩,
    ⟨0x3f#8, 0xFF#8, .noOperand (.bare .aas)⟩,
    ⟨0x70#8, 0xFF#8, .shortJump .jo⟩,
    ⟨0x71#8, 0xFF#8, .shortJump .jno⟩,
    ⟨0x72#8, 0xFF#8, .shortJump .jb⟩,
    ⟨0x73#8, 0xFF#8, .shortJump .jnb⟩,
    ⟨0x74#8, 0xFF#8, .shortJump .jz⟩,
    ⟨0x75#8, 0xFF#8, .shortJump .jnz⟩,
    ⟨0x76#8, 0xFF#8, .shortJump .jbe⟩,
    ⟨0x77#8, 0xFF#8, .shortJump .ja⟩,
    ⟨0x78#8, 0xFF#8, .shortJump .js⟩,
    ⟨0x79#8, 0xFF#8, .shortJump .jns⟩,
    ⟨0x7a#8, 0xFF#8, .shortJump .jp⟩,
    ⟨0x7b#8, 0xFF#8, .shortJump .jnp⟩,
    ⟨0x7c#8, 0xFF#8, .shortJump .jl⟩,
    ⟨0x7d#8, 0xFF#8, .shortJump .jnl⟩,
    ⟨0x7e#8, 0xFF#8, .shortJump .jle⟩,
    ⟨0x7f#8, 0xFF#8, .shortJump .jg⟩,
    ⟨0x8c#8, 0xFF#8, .regMemToFromReg (.rmSreg .movRmSreg)⟩,
    ⟨0x8d#8, 0xFF#8, .regMemToFromReg (.regMem .lea)⟩,
    ⟨0x8e#8, 0xFF#8, .regMemToFromReg (.rmSreg .movSregRm)⟩,
    ⟨0x8f#8, 0xFF#8, .group .grp8f⟩,
    ⟨0x90#8, 0xFF#8, .noOperand (.bare .nop)⟩,
    ⟨0x98#8, 0xFF#8, .noOperand (.bare .cbw)⟩,
    ⟨0x99#8, 0xFF#8, .noOperand (.bare .cwd)⟩,
    ⟨0x9a#8, 0xFF#8, .farProcLabel .callFar⟩,
    ⟨0x9b#8, 0xFF#8, .noOperand (.bare .wait)⟩,
    ⟨0x9c#8, 0xFF#8, .noOperand (.bare .pushf)⟩,
    ⟨0x9d#8, 0xFF#8, .noOperand (.bare .popf)⟩,
    ⟨0x9e#8, 0xFF#8, .noOperand (.bare .sahf)⟩,
    ⟨0x9f#8, 0xFF#8, .noOperand (.bare .lahf)⟩ ]

/-- Entries with 8 mask bits (R78). -/
def entries8b : List Entry :=
  [ ⟨0xc2#8, 0xFF#8, .other (.imm16 .retImm)⟩,
    ⟨0xc3#8, 0xFF#8, .noOperand (.bare .ret)⟩,
    ⟨0xc4#8, 0xFF#8, .regMemToFromReg (.regMem .les)⟩,
    ⟨0xc5#8, 0xFF#8, .regMemToFromReg (.regMem .lds)⟩,
    ⟨0xca#8, 0xFF#8, .other (.imm16 .retfImm)⟩,
    ⟨0xcb#8, 0xFF#8, .noOperand (.bare .retf)⟩,
    ⟨0xcc#8, 0xFF#8, .noOperand (.bare .int3)⟩,
    ⟨0xcd#8, 0xFF#8, .other (.imm8 .int)⟩,
    ⟨0xce#8, 0xFF#8, .noOperand (.bare .into)⟩,
    ⟨0xcf#8, 0xFF#8, .noOperand (.bare .iret)⟩,
    ⟨0xd4#8, 0xFF#8, .other (.aa .aam)⟩,
    ⟨0xd5#8, 0xFF#8, .other (.aa .aad)⟩,
    ⟨0xd7#8, 0xFF#8, .noOperand (.bare .xlat)⟩,
    ⟨0xe0#8, 0xFF#8, .shortJump .loopnz⟩,
    ⟨0xe1#8, 0xFF#8, .shortJump .loopz⟩,
    ⟨0xe2#8, 0xFF#8, .shortJump .loop⟩,
    ⟨0xe3#8, 0xFF#8, .shortJump .jcxz⟩,
    ⟨0xe8#8, 0xFF#8, .nearProcLabel .callNear⟩,
    ⟨0xe9#8, 0xFF#8, .nearProcLabel .jmpNear⟩,
    ⟨0xea#8, 0xFF#8, .farProcLabel .jmpFar⟩,
    ⟨0xeb#8, 0xFF#8, .shortJump .jmpShort⟩,
    ⟨0xf0#8, 0xFF#8, .prefixByte .other⟩,
    ⟨0xf2#8, 0xFF#8, .prefixByte .stringRepeat⟩,
    ⟨0xf3#8, 0xFF#8, .prefixByte .stringRepeat⟩,
    ⟨0xf4#8, 0xFF#8, .noOperand (.bare .hlt)⟩,
    ⟨0xf5#8, 0xFF#8, .noOperand (.bare .cmc)⟩,
    ⟨0xf8#8, 0xFF#8, .noOperand (.bare .clc)⟩,
    ⟨0xf9#8, 0xFF#8, .noOperand (.bare .stc)⟩,
    ⟨0xfa#8, 0xFF#8, .noOperand (.bare .cli)⟩,
    ⟨0xfb#8, 0xFF#8, .noOperand (.bare .sti)⟩,
    ⟨0xfc#8, 0xFF#8, .noOperand (.bare .cld)⟩,
    ⟨0xfd#8, 0xFF#8, .noOperand (.bare .std)⟩,
    ⟨0xfe#8, 0xFF#8, .group .grp4⟩,
    ⟨0xff#8, 0xFF#8, .group .grp5⟩ ]

/-- Entries with 7 mask bits (R78). -/
def entries7 : List Entry :=
  [ ⟨0x04#8, 0xFE#8, .immediateToAccumulator (.accImm .addAccImm)⟩,
    ⟨0x0c#8, 0xFE#8, .immediateToAccumulator (.accImm .orAccImm)⟩,
    ⟨0x14#8, 0xFE#8, .immediateToAccumulator (.accImm .adcAccImm)⟩,
    ⟨0x1c#8, 0xFE#8, .immediateToAccumulator (.accImm .sbbAccImm)⟩,
    ⟨0x24#8, 0xFE#8, .immediateToAccumulator (.accImm .andAccImm)⟩,
    ⟨0x2c#8, 0xFE#8, .immediateToAccumulator (.accImm .subAccImm)⟩,
    ⟨0x34#8, 0xFE#8, .immediateToAccumulator (.accImm .xorAccImm)⟩,
    ⟨0x3c#8, 0xFE#8, .immediateToAccumulator (.accImm .cmpAccImm)⟩,
    ⟨0x84#8, 0xFE#8, .regMemToFromReg (.rmReg .testRmReg)⟩,
    ⟨0x86#8, 0xFE#8, .regMemToFromReg (.rmReg .xchgRmReg)⟩,
    ⟨0xa0#8, 0xFE#8, .immediateToAccumulator (.accMem .movAccMem)⟩,
    ⟨0xa2#8, 0xFE#8, .immediateToAccumulator (.accMem .movMemAcc)⟩,
    ⟨0xa4#8, 0xFE#8, .noOperand (.str .movs)⟩,
    ⟨0xa6#8, 0xFE#8, .noOperand (.str .cmps)⟩,
    ⟨0xa8#8, 0xFE#8, .immediateToAccumulator (.accImm .testAccImm)⟩,
    ⟨0xaa#8, 0xFE#8, .noOperand (.str .stos)⟩,
    ⟨0xac#8, 0xFE#8, .noOperand (.str .lods)⟩,
    ⟨0xae#8, 0xFE#8, .noOperand (.str .scas)⟩,
    ⟨0xc6#8, 0xFE#8, .group .grpc6⟩,
    ⟨0xe4#8, 0xFE#8, .immediateToAccumulator (.port8 .inPort)⟩,
    ⟨0xe6#8, 0xFE#8, .immediateToAccumulator (.port8 .outPort)⟩,
    ⟨0xec#8, 0xFE#8, .noOperand (.portDx .inDx)⟩,
    ⟨0xee#8, 0xFE#8, .noOperand (.portDx .outDx)⟩,
    ⟨0xf6#8, 0xFE#8, .group .grp3⟩ ]

/-- Entries with 6 mask bits (R78). -/
def entries6 : List Entry :=
  [ ⟨0x00#8, 0xFC#8, .regMemToFromReg (.rmRegD .addRmReg)⟩,
    ⟨0x06#8, 0xE7#8, .segmentRegisterOnly .pushSreg⟩,
    ⟨0x07#8, 0xE7#8, .segmentRegisterOnly .popSreg⟩,
    ⟨0x08#8, 0xFC#8, .regMemToFromReg (.rmRegD .orRmReg)⟩,
    ⟨0x10#8, 0xFC#8, .regMemToFromReg (.rmRegD .adcRmReg)⟩,
    ⟨0x18#8, 0xFC#8, .regMemToFromReg (.rmRegD .sbbRmReg)⟩,
    ⟨0x20#8, 0xFC#8, .regMemToFromReg (.rmRegD .andRmReg)⟩,
    ⟨0x26#8, 0xE7#8, .prefixByte .segmentRegisterOnly⟩,
    ⟨0x28#8, 0xFC#8, .regMemToFromReg (.rmRegD .subRmReg)⟩,
    ⟨0x30#8, 0xFC#8, .regMemToFromReg (.rmRegD .xorRmReg)⟩,
    ⟨0x38#8, 0xFC#8, .regMemToFromReg (.rmRegD .cmpRmReg)⟩,
    ⟨0x80#8, 0xFC#8, .group .grp1⟩,
    ⟨0x88#8, 0xFC#8, .regMemToFromReg (.rmRegD .movRmReg)⟩,
    ⟨0xd0#8, 0xFC#8, .group .grp2⟩ ]

/-- Entries with 5 mask bits (R78). -/
def entries5 : List Entry :=
  [ ⟨0x40#8, 0xF8#8, .registerOnly .incReg⟩,
    ⟨0x48#8, 0xF8#8, .registerOnly .decReg⟩,
    ⟨0x50#8, 0xF8#8, .registerOnly .pushReg⟩,
    ⟨0x58#8, 0xF8#8, .registerOnly .popReg⟩,
    ⟨0x90#8, 0xF8#8, .registerOnly .xchgAxReg⟩ ]

/-- Entries with 4 mask bits (R78). -/
def entries4 : List Entry :=
  [ ⟨0xb0#8, 0xF0#8, .immediateToRegister .movRegImm⟩ ]

/-- The dispatch table of R78: 112 entries, most mask bits first. -/
def dispatchTable : List Entry :=
  entries8a ++ entries8b ++ entries7 ++ entries6 ++ entries5 ++ entries4

/-- The first entry that matches (R78, R118). -/
def firstEntry (b : Byte) : Option Entry := dispatchTable.find? (·.hits b)

/-- `Dispatch(b)` (R118): none if no entry matches; entry 1 returns none as well. -/
def dispatch (b : Byte) : Option Target :=
  match firstEntry b with
  | none   => none
  | some e => match e.target with
    | .refuse => none
    | t       => some t

/-- The rows of a group, by ModRM.reg (R74); `none` is a reserved entry. -/
def groupRows : Group → List (Option GroupRow)
  | .grp1 =>
    [some (.immediateToRegMem (.rmImmSW .addRmImm)), some (.immediateToRegMem (.rmImmSW .orRmImm)),
     some (.immediateToRegMem (.rmImmSW .adcRmImm)), some (.immediateToRegMem (.rmImmSW .sbbRmImm)),
     some (.immediateToRegMem (.rmImmSW .andRmImm)), some (.immediateToRegMem (.rmImmSW .subRmImm)),
     some (.immediateToRegMem (.rmImmSW .xorRmImm)), some (.immediateToRegMem (.rmImmSW .cmpRmImm))]
  | .grp2 =>
    [some (.regMemToFromReg (.shift .rol)), some (.regMemToFromReg (.shift .ror)),
     some (.regMemToFromReg (.shift .rcl)), some (.regMemToFromReg (.shift .rcr)),
     some (.regMemToFromReg (.shift .shl)), some (.regMemToFromReg (.shift .shr)), none,
     some (.regMemToFromReg (.shift .sar))]
  | .grp3 =>
    [some (.immediateToRegMem (.rmImmW .testRmImm)), none, some (.regMemToFromReg (.rm .not)),
     some (.regMemToFromReg (.rm .neg)), some (.regMemToFromReg (.rm .mul)), some (.regMemToFromReg (.rm .imul)),
     some (.regMemToFromReg (.rm .div)), some (.regMemToFromReg (.rm .idiv))]
  | .grp4 =>
    [some (.regMemToFromReg (.rm .incRm)), some (.regMemToFromReg (.rm .decRm)), none, none, none, none, none, none]
  | .grp5 =>
    [some (.regMemToFromReg (.rm .incRm)), some (.regMemToFromReg (.rm .decRm)),
     some (.regMemToFromReg (.rm16 .callRm)), some (.regMemToFromReg (.mem16 .callFarMem)),
     some (.regMemToFromReg (.rm16 .jmpRm)), some (.regMemToFromReg (.mem16 .jmpFarMem)),
     some (.regMemToFromReg (.rm16 .pushRm)), none]
  | .grp8f =>
    [some (.regMemToFromReg (.rm16 .popRm)), none, none, none, none, none, none, none]
  | .grpc6 =>
    [some (.immediateToRegMem (.rmImmW .movRmImm)), none, none, none, none, none, none, none]

/-- `GroupTable[t][reg]` (R120). -/
def groupTable (g : Group) (reg : BitVec 3) : Option GroupRow := ((groupRows g)[reg.toNat]?).join

/-- The shape of a group's row. -/
def GroupRow.shape : GroupRow → Shape
  | .regMemToFromReg _   => .regMemToFromReg
  | .immediateToRegMem _ => .immediateToRegMem

/-- The shape of the row a target selects (R19); of a group, the row at `reg`, none where the entry is reserved (R74). -/
def Target.shapeAt (t : Target) (reg : BitVec 3) : Option Shape :=
  match t with
  | .refuse                   => none
  | .prefixByte sh            => some sh
  | .group g                  => (groupTable g reg).map GroupRow.shape
  | .regMemToFromReg _        => some .regMemToFromReg
  | .immediateToAccumulator _ => some .immediateToAccumulator
  | .immediateToRegister _    => some .immediateToRegister
  | .shortJump _              => some .shortJump
  | .nearProcLabel _          => some .nearProcLabel
  | .farProcLabel _           => some .farProcLabel
  | .registerOnly _           => some .registerOnly
  | .segmentRegisterOnly _    => some .segmentRegisterOnly
  | .noOperand _              => some .noOperand
  | .other _                  => some .other

/-! ## Operands (R124, R129 to R131) -/

/-- `DecodeRM` (R124) for `mod ≠ 11`: the memory operand and its displacement. -/
def readMem (m : ModRM) (c : Cursor) : Except ErrorRecord (Mem × Cursor) :=
  if m.mod = 0 then
    if m.rm = 6 then do
      let (a, c) ← c.readWord
      return (.direct a, c)
    else .ok (.base (EaBase.ofBits m.rm), c)
  else if m.mod = 1 then do
    let (v, c) ← c.readByte
    return (.disp8 (EaBase.ofBits m.rm) v, c)
  else do
    let (v, c) ← c.readWord
    return (.disp16 (EaBase.ofBits m.rm) v, c)

/-- `DecodeRM` (R124). -/
def readRm (m : ModRM) (c : Cursor) : Except ErrorRecord (Rm × Cursor) :=
  if m.isReg then .ok (.reg m.rm, c)
  else do
    let (x, c) ← readMem m c
    return (.mem x, c)

/-- `ImmW(w)` (R130), and the immediate of form ACC_IMM (R131). -/
def readImmW (w : Width) (c : Cursor) : Except ErrorRecord (ImmW × Cursor) :=
  match w with
  | .byte => do
    let (v, c) ← c.readByte
    return (.imm8 v, c)
  | .word => do
    let (v, c) ← c.readWord
    return (.imm16 v, c)

/-- `ImmSW(s, w)` (R129). -/
def readImmSW (s : Bool) (w : Width) (c : Cursor) : Except ErrorRecord (ImmSW × Cursor) :=
  match w with
  | .byte => do
    let (v, c) ← c.readByte
    return (.imm8 s v, c)
  | .word =>
    if s then do
      let (v, c) ← c.readByte
      return (.sext8 v, c)
    else do
      let (v, c) ← c.readWord
      return (.imm16 v, c)

/-! ## Form routines (R136 to R158) -/

/-- A routine whose instruction has no explicit memory operand: the segment check comes before any data byte (R122). -/
def noMem (sg : Option SegLatch) (c : Cursor)
    (k : Cursor → Except ErrorRecord (Instr × Cursor)) : Except ErrorRecord (Instr × Cursor) := do
  segCheck c sg false
  k c

/-- The routine of shape RegMemToFromReg, after the ModRM read and the group's `reg` check (R136 to R139, R142, R143). -/
def regMemRoutine (f : RegMemForm) (m : ModRM) (b : Byte) (sg : Option SegLatch) (c : Cursor) :
    Except ErrorRecord (Instr × Cursor) :=
  match f with
  | .rmRegD mk => do
    segCheck c sg (!m.isReg)
    let (x, c) ← readRm m c
    return (mk (fieldD b) (fieldW b) m.reg x, c)
  | .rmReg mk => do
    segCheck c sg (!m.isReg)
    let (x, c) ← readRm m c
    return (mk (fieldW b) m.reg x, c)
  | .regMem mk =>
    if m.isReg then .error (invalidField c.start m.off m.byte .mod)
    else do
      segCheck c sg true
      let (x, c) ← readMem m c
      return (mk m.reg x, c)
  | .rmSreg mk =>
    if m.reg.getLsbD 2 then .error (invalidField c.start m.off m.byte .sreg)
    else do
      segCheck c sg (!m.isReg)
      let (x, c) ← readRm m c
      return (mk (Sreg.ofBits (m.reg.extractLsb' 0 2)) x, c)
  | .rm mk => do
    segCheck c sg (!m.isReg)
    let (x, c) ← readRm m c
    return (mk (fieldW b) x, c)
  | .rm16 mk => do
    segCheck c sg (!m.isReg)
    let (x, c) ← readRm m c
    return (mk x, c)
  | .mem16 mk =>
    if m.isReg then .error (invalidField c.start m.off m.byte .mod)
    else do
      segCheck c sg true
      let (x, c) ← readMem m c
      return (mk x, c)
  | .shift mk => do
    segCheck c sg (!m.isReg)
    let (x, c) ← readRm m c
    return (mk (fieldV b) (fieldW b) x, c)

/-- The routine of shape ImmediateToRegMem, after the ModRM read and the group's `reg` check (R140, R141). -/
def immRegMemRoutine (f : ImmRegMemForm) (m : ModRM) (b : Byte) (sg : Option SegLatch) (c : Cursor) :
    Except ErrorRecord (Instr × Cursor) :=
  match f with
  | .rmImmSW mk => do
    segCheck c sg (!m.isReg)
    let (x, c) ← readRm m c
    let (im, c) ← readImmSW (fieldS b) (fieldW b) c
    return (mk x im, c)
  | .rmImmW mk => do
    segCheck c sg (!m.isReg)
    let (x, c) ← readRm m c
    let (im, c) ← readImmW (fieldW b) c
    return (mk x im, c)

/-- The routine of shape ImmediateToAccumulator (R144, R145, R155). -/
def accRoutine (f : AccForm) (b : Byte) (sg : Option SegLatch) (c : Cursor) : Except ErrorRecord (Instr × Cursor) :=
  match f with
  | .accImm mk => noMem sg c fun c => do
    let (im, c) ← readImmW (fieldW b) c
    return (mk im, c)
  | .accMem mk => do
    segCheck c sg true
    let (a, c) ← c.readWord
    return (mk (fieldW b) a, c)
  | .port8 mk => noMem sg c fun c => do
    let (p, c) ← c.readByte
    return (mk (fieldW b) p, c)

/-- The routine of shape ImmediateToRegister (R146). -/
def regImmRoutine (mk : RegImm → Instr) (b : Byte) (sg : Option SegLatch) (c : Cursor) :
    Except ErrorRecord (Instr × Cursor) :=
  noMem sg c fun c =>
    match fieldRegImmW b with
    | .byte => do
      let (v, c) ← c.readByte
      return (mk (.r8 (fieldR b) v), c)
    | .word => do
      let (v, c) ← c.readWord
      return (mk (.r16 (fieldR b) v), c)

/-- The routine of shape ShortJump (R149). -/
def shortJumpRoutine (mk : Byte → Instr) (sg : Option SegLatch) (c : Cursor) : Except ErrorRecord (Instr × Cursor) :=
  noMem sg c fun c => do
    let (v, c) ← c.readByte
    return (mk v, c)

/-- The routine of shape NearProcLabel (R150). -/
def nearRoutine (mk : Word → Instr) (sg : Option SegLatch) (c : Cursor) : Except ErrorRecord (Instr × Cursor) :=
  noMem sg c fun c => do
    let (v, c) ← c.readWord
    return (mk v, c)

/-- The routine of shape FarProcLabel (R135, R151): the offset word, then the segment word. -/
def farRoutine (mk : Word → Word → Instr) (sg : Option SegLatch) (c : Cursor) : Except ErrorRecord (Instr × Cursor) :=
  noMem sg c fun c => do
    let (off, c) ← c.readWord
    let (sgm, c) ← c.readWord
    return (mk off sgm, c)

/-- The routine of shape RegisterOnly (R147). -/
def registerOnlyRoutine (mk : RegField → Instr) (b : Byte) (sg : Option SegLatch) (c : Cursor) :
    Except ErrorRecord (Instr × Cursor) :=
  noMem sg c fun c => .ok (mk (fieldR b), c)

/-- The routine of shape SegmentRegisterOnly (R148). The override prefixes, of the same shape, are `segPhase`'s. -/
def segRegOnlyRoutine (mk : Sreg → Instr) (b : Byte) (sg : Option SegLatch) (c : Cursor) :
    Except ErrorRecord (Instr × Cursor) :=
  noMem sg c fun c => .ok (mk (fieldSr b), c)

/-- The routine of shape NoOperand (R156 to R158). -/
def noOperandRoutine (f : NoOperandForm) (b : Byte) (sg : Option SegLatch) (c : Cursor) :
    Except ErrorRecord (Instr × Cursor) :=
  match f with
  | .portDx mk => noMem sg c fun c => .ok (mk (fieldW b), c)
  | .str mk    => noMem sg c fun c => .ok (mk (fieldW b), c)
  | .bare i    => noMem sg c fun c => .ok (i, c)

/-- The routine of shape Other (R152 to R154). The LOCK prefix, of the same shape, is `lockPhase`'s. -/
def otherRoutine (f : OtherForm) (sg : Option SegLatch) (c : Cursor) : Except ErrorRecord (Instr × Cursor) :=
  match f with
  | .imm8 mk => noMem sg c fun c => do
    let (v, c) ← c.readByte
    return (mk v, c)
  | .imm16 mk => noMem sg c fun c => do
    let (v, c) ← c.readWord
    return (mk v, c)
  | .aa i => noMem sg c fun c => do
    let (y, c) ← c.readLocated
    if y.byte = 0x0A then .ok (i, c) else .error (y.invalid c .aamAadBase)

/-- The routine of a group's row, after `ResolveGroup` has answered it (R120): its shape decides, not the group's entry. -/
def groupRoutine (row : GroupRow) (m : ModRM) (b : Byte) (sg : Option SegLatch) (c : Cursor) :
    Except ErrorRecord (Instr × Cursor) :=
  match row with
  | .regMemToFromReg f   => regMemRoutine f m b sg c
  | .immediateToRegMem f => immRegMemRoutine f m b sg c

/-- `FormRoutine(t.form)(b, o)` (R112) for the opcode byte `b`, the cursor behind it and the segment latch: the target's shape
decides which routine runs (R19, R17: "Each maps to exactly one decode routine"), and the form what it reads. -/
def routine (t : Target) (x : Located) (sg : Option SegLatch) (c : Cursor) :
    Except ErrorRecord (Instr × Cursor) :=
  let b := x.byte
  match t with
  | .refuse | .prefixByte _ => .error (unknownOpcode c.start x.off b)   -- never reached (R78, R118)
  | .group g => do
    let (m, c) ← c.readModRM
    match groupTable g m.reg with
    | none     => .error (invalidField c.start m.off m.byte .reg)
    | some row => groupRoutine row m b sg c
  | .regMemToFromReg f => do
    let (m, c) ← c.readModRM
    regMemRoutine f m b sg c
  | .immediateToAccumulator f => accRoutine f b sg c
  | .immediateToRegister mk   => regImmRoutine mk b sg c
  | .shortJump mk             => shortJumpRoutine mk sg c
  | .nearProcLabel mk         => nearRoutine mk sg c
  | .farProcLabel mk          => farRoutine mk sg c
  | .registerOnly mk          => registerOnlyRoutine mk b sg c
  | .segmentRegisterOnly mk   => segRegOnlyRoutine mk b sg c
  | .noOperand f              => noOperandRoutine f b sg c
  | .other f                  => otherRoutine f sg c

/-- `DecodeOne` (R112) from a cursor. -/
def decodeFrom (c : Cursor) : Except ErrorRecord (Instr × Cursor) := do
  let ((p, x), c) ← prefixPhase c
  match dispatch x.byte with
  | none   => .error (unknownOpcode c.start x.off x.byte)
  | some t => do
    let (i, c) ← routine t x p.seg c
    return (p.wrap i, c)

/-- `DecodeOne(start)` (R112): the instruction at offset `start` and the offset after it, or the error raised. -/
def decodeOne (buf : List Byte) (start : Nat) : Except ErrorRecord (Instr × Nat) := do
  let (i, c) ← decodeFrom (Cursor.at buf start)
  return (i, c.pos)

/-- The shape each row of opcode_table.json carries (R19, R87). -/
def Instr.shape : Instr → Shape
  | .movRmReg _ _ _ _ | .movRmSreg _ _ | .movSregRm _ _ | .pushRm _ | .popRm _ | .xchgRmReg _ _ _ | .lea _ _
  | .lds _ _ | .les _ _ | .addRmReg _ _ _ _ | .adcRmReg _ _ _ _ | .sbbRmReg _ _ _ _ | .subRmReg _ _ _ _
  | .cmpRmReg _ _ _ _ | .incRm _ _ | .decRm _ _ | .neg _ _ | .mul _ _ | .imul _ _ | .div _ _ | .idiv _ _
  | .orRmReg _ _ _ _ | .andRmReg _ _ _ _ | .xorRmReg _ _ _ _ | .not _ _ | .rol _ _ _ | .ror _ _ _ | .rcl _ _ _
  | .rcr _ _ _ | .shl _ _ _ | .shr _ _ _ | .sar _ _ _ | .testRmReg _ _ _ | .callRm _ | .callFarMem _ | .jmpRm _
  | .jmpFarMem _ => .regMemToFromReg
  | .movRmImm _ _ | .addRmImm _ _ | .adcRmImm _ _ | .sbbRmImm _ _ | .subRmImm _ _ | .cmpRmImm _ _
  | .orRmImm _ _ | .andRmImm _ _ | .xorRmImm _ _ | .testRmImm _ _ => .immediateToRegMem
  | .movAccMem _ _ | .movMemAcc _ _ | .inPort _ _ | .outPort _ _ | .addAccImm _ | .adcAccImm _ | .sbbAccImm _
  | .subAccImm _ | .cmpAccImm _ | .orAccImm _ | .andAccImm _ | .xorAccImm _ | .testAccImm _ => .immediateToAccumulator
  | .movRegImm _ => .immediateToRegister
  | .jmpShort _ | .jo _ | .jno _ | .jb _ | .jnb _ | .jz _ | .jnz _ | .jbe _ | .ja _ | .js _ | .jns _ | .jp _
  | .jnp _ | .jl _ | .jnl _ | .jle _ | .jg _ | .loop _ | .loopz _ | .loopnz _ | .jcxz _ => .shortJump
  | .callNear _ | .jmpNear _ => .nearProcLabel
  | .callFar _ _ | .jmpFar _ _ => .farProcLabel
  | .pushReg _ | .popReg _ | .xchgAxReg _ | .incReg _ | .decReg _ => .registerOnly
  | .pushSreg _ | .popSreg _ | .seg _ _ => .segmentRegisterOnly
  | .rep _ | .repne _ => .stringRepeat
  | .inDx _ | .outDx _ | .xlat | .lahf | .sahf | .pushf | .popf | .aaa | .daa | .aas | .das | .cbw | .cwd
  | .movs _ | .cmps _ | .scas _ | .lods _ | .stos _ | .ret | .retf | .int3 | .into | .iret | .clc | .cmc | .stc
  | .cld | .std | .cli | .sti | .hlt | .wait | .nop => .noOperand
  | .aam | .aad | .retImm _ | .retfImm _ | .int _ | .lock _ => .other

/-! ## The encoder, from the encodings of the rows (R66 to R74, opcode_table.json) -/

/-- The `w` bit. -/
def Width.bits : Width → BitVec 1
  | .byte => 0
  | .word => 1

/-- The `d` bit. -/
def Dir.bits : Dir → BitVec 1
  | .rmFirst  => 0
  | .regFirst => 1

/-- The `v` bit. -/
def ShiftCount.bits : ShiftCount → BitVec 1
  | .one => 0
  | .cl  => 1

/-- The index in `SREG` (R72). -/
def Sreg.bits : Sreg → BitVec 2
  | .es => 0
  | .cs => 1
  | .ss => 2
  | .ds => 3

/-- The index in `EA` (R73). -/
def EaBase.bits : EaBase → BitVec 3
  | .bxSi => 0
  | .bxDi => 1
  | .bpSi => 2
  | .bpDi => 3
  | .si   => 4
  | .di   => 5
  | .bp   => 6
  | .bx   => 7

/-- A word's bytes, low byte first (R50). -/
def wordBytes (v : Word) : List Byte := [v.extractLsb' 0 8, v.extractLsb' 8 8]

/-- A ModRM byte from its fields (R69). -/
def modRMByte (mod : BitVec 2) (reg rm : BitVec 3) : Byte := mod ++ reg ++ rm

/-- ModRM byte and displacement of a memory operand (R124), `reg` in the reg field. -/
def Mem.bytes (reg : BitVec 3) : Mem → List Byte
  | .direct a   => modRMByte 0 reg 6 :: wordBytes a
  | .base e     => [modRMByte 0 reg e.bits]
  | .disp8 e v  => [modRMByte 1 reg e.bits, v]
  | .disp16 e v => modRMByte 2 reg e.bits :: wordBytes v

/-- ModRM byte and displacement of an r/m operand. -/
def Rm.bytes (reg : BitVec 3) : Rm → List Byte
  | .reg r => [modRMByte 3 reg r]
  | .mem m => m.bytes reg

/-- The bytes of an immediate read by `w`. -/
def ImmW.bytes : ImmW → List Byte
  | .imm8 v  => [v]
  | .imm16 v => wordBytes v

/-- The bytes of a GRP1 immediate. -/
def ImmSW.bytes : ImmSW → List Byte
  | .imm8 _ v => [v]
  | .sext8 v  => [v]
  | .imm16 v  => wordBytes v

/-- The bits `sw` of a GRP1 opcode (R129). -/
def ImmSW.swBits : ImmSW → BitVec 2
  | .imm8 s _ => BitVec.ofBool s ++ 0b0#1
  | .sext8 _  => 0b11#2
  | .imm16 _  => 0b01#2

/-- The bits `wrrr` of a REG_IMM opcode (R68). -/
def RegImm.opBits : RegImm → BitVec 4
  | .r8 r _  => 0b0#1 ++ r
  | .r16 r _ => 0b1#1 ++ r

/-- The immediate's bytes of form REG_IMM. -/
def RegImm.bytes : RegImm → List Byte
  | .r8 _ v  => [v]
  | .r16 _ v => wordBytes v

/-- The bytes of an instruction: each row's `encoding` of opcode_table.json, then displacement and data (R66). -/
def Instr.encode : Instr → List Byte
  | .movRmReg d w reg x => (0b100010#6 ++ d.bits ++ w.bits) :: x.bytes reg
  | .movRmImm x im => (0b1100011#7 ++ im.width.bits) :: (x.bytes 0b000#3 ++ im.bytes)
  | .movRegImm ri => (0b1011#4 ++ ri.opBits) :: ri.bytes
  | .movAccMem w a => (0b1010000#7 ++ w.bits) :: wordBytes a
  | .movMemAcc w a => (0b1010001#7 ++ w.bits) :: wordBytes a
  | .movRmSreg sr x => 0b10001100#8 :: x.bytes (0b0#1 ++ sr.bits)
  | .movSregRm sr x => 0b10001110#8 :: x.bytes (0b0#1 ++ sr.bits)
  | .pushRm x => 0b11111111#8 :: x.bytes 0b110#3
  | .pushReg r => [0b01010#5 ++ r]
  | .pushSreg sr => [0b000#3 ++ sr.bits ++ 0b110#3]
  | .popRm x => 0b10001111#8 :: x.bytes 0b000#3
  | .popReg r => [0b01011#5 ++ r]
  | .popSreg sr => [0b000#3 ++ sr.bits ++ 0b111#3]
  | .xchgRmReg w reg x => (0b1000011#7 ++ w.bits) :: x.bytes reg
  | .xchgAxReg r => [0b10010#5 ++ r]
  | .inPort w p => [0b1110010#7 ++ w.bits, p]
  | .inDx w => [0b1110110#7 ++ w.bits]
  | .outPort w p => [0b1110011#7 ++ w.bits, p]
  | .outDx w => [0b1110111#7 ++ w.bits]
  | .xlat => [0b11010111#8]
  | .lea reg m => 0b10001101#8 :: m.bytes reg
  | .lds reg m => 0b11000101#8 :: m.bytes reg
  | .les reg m => 0b11000100#8 :: m.bytes reg
  | .lahf => [0b10011111#8]
  | .sahf => [0b10011110#8]
  | .pushf => [0b10011100#8]
  | .popf => [0b10011101#8]
  | .addRmReg d w reg x => (0b000000#6 ++ d.bits ++ w.bits) :: x.bytes reg
  | .addRmImm x im => (0b100000#6 ++ im.swBits) :: (x.bytes 0b000#3 ++ im.bytes)
  | .addAccImm im => (0b0000010#7 ++ im.width.bits) :: im.bytes
  | .adcRmReg d w reg x => (0b000100#6 ++ d.bits ++ w.bits) :: x.bytes reg
  | .adcRmImm x im => (0b100000#6 ++ im.swBits) :: (x.bytes 0b010#3 ++ im.bytes)
  | .adcAccImm im => (0b0001010#7 ++ im.width.bits) :: im.bytes
  | .sbbRmReg d w reg x => (0b000110#6 ++ d.bits ++ w.bits) :: x.bytes reg
  | .sbbRmImm x im => (0b100000#6 ++ im.swBits) :: (x.bytes 0b011#3 ++ im.bytes)
  | .sbbAccImm im => (0b0001110#7 ++ im.width.bits) :: im.bytes
  | .subRmReg d w reg x => (0b001010#6 ++ d.bits ++ w.bits) :: x.bytes reg
  | .subRmImm x im => (0b100000#6 ++ im.swBits) :: (x.bytes 0b101#3 ++ im.bytes)
  | .subAccImm im => (0b0010110#7 ++ im.width.bits) :: im.bytes
  | .cmpRmReg d w reg x => (0b001110#6 ++ d.bits ++ w.bits) :: x.bytes reg
  | .cmpRmImm x im => (0b100000#6 ++ im.swBits) :: (x.bytes 0b111#3 ++ im.bytes)
  | .cmpAccImm im => (0b0011110#7 ++ im.width.bits) :: im.bytes
  | .incRm w x => (0b1111111#7 ++ w.bits) :: x.bytes 0b000#3
  | .incReg r => [0b01000#5 ++ r]
  | .decRm w x => (0b1111111#7 ++ w.bits) :: x.bytes 0b001#3
  | .decReg r => [0b01001#5 ++ r]
  | .aaa => [0b00110111#8]
  | .daa => [0b00100111#8]
  | .aas => [0b00111111#8]
  | .das => [0b00101111#8]
  | .neg w x => (0b1111011#7 ++ w.bits) :: x.bytes 0b011#3
  | .mul w x => (0b1111011#7 ++ w.bits) :: x.bytes 0b100#3
  | .imul w x => (0b1111011#7 ++ w.bits) :: x.bytes 0b101#3
  | .div w x => (0b1111011#7 ++ w.bits) :: x.bytes 0b110#3
  | .idiv w x => (0b1111011#7 ++ w.bits) :: x.bytes 0b111#3
  | .aam => [0b11010100#8, 0b00001010#8]
  | .aad => [0b11010101#8, 0b00001010#8]
  | .cbw => [0b10011000#8]
  | .cwd => [0b10011001#8]
  | .orRmReg d w reg x => (0b000010#6 ++ d.bits ++ w.bits) :: x.bytes reg
  | .orRmImm x im => (0b100000#6 ++ im.swBits) :: (x.bytes 0b001#3 ++ im.bytes)
  | .orAccImm im => (0b0000110#7 ++ im.width.bits) :: im.bytes
  | .andRmReg d w reg x => (0b001000#6 ++ d.bits ++ w.bits) :: x.bytes reg
  | .andRmImm x im => (0b100000#6 ++ im.swBits) :: (x.bytes 0b100#3 ++ im.bytes)
  | .andAccImm im => (0b0010010#7 ++ im.width.bits) :: im.bytes
  | .xorRmReg d w reg x => (0b001100#6 ++ d.bits ++ w.bits) :: x.bytes reg
  | .xorRmImm x im => (0b100000#6 ++ im.swBits) :: (x.bytes 0b110#3 ++ im.bytes)
  | .xorAccImm im => (0b0011010#7 ++ im.width.bits) :: im.bytes
  | .not w x => (0b1111011#7 ++ w.bits) :: x.bytes 0b010#3
  | .rol v w x => (0b110100#6 ++ v.bits ++ w.bits) :: x.bytes 0b000#3
  | .ror v w x => (0b110100#6 ++ v.bits ++ w.bits) :: x.bytes 0b001#3
  | .rcl v w x => (0b110100#6 ++ v.bits ++ w.bits) :: x.bytes 0b010#3
  | .rcr v w x => (0b110100#6 ++ v.bits ++ w.bits) :: x.bytes 0b011#3
  | .shl v w x => (0b110100#6 ++ v.bits ++ w.bits) :: x.bytes 0b100#3
  | .shr v w x => (0b110100#6 ++ v.bits ++ w.bits) :: x.bytes 0b101#3
  | .sar v w x => (0b110100#6 ++ v.bits ++ w.bits) :: x.bytes 0b111#3
  | .testRmReg w reg x => (0b1000010#7 ++ w.bits) :: x.bytes reg
  | .testRmImm x im => (0b1111011#7 ++ im.width.bits) :: (x.bytes 0b000#3 ++ im.bytes)
  | .testAccImm im => (0b1010100#7 ++ im.width.bits) :: im.bytes
  | .movs w => [0b1010010#7 ++ w.bits]
  | .cmps w => [0b1010011#7 ++ w.bits]
  | .scas w => [0b1010111#7 ++ w.bits]
  | .lods w => [0b1010110#7 ++ w.bits]
  | .stos w => [0b1010101#7 ++ w.bits]
  | .rep body => 0b11110011#8 :: body.encode
  | .repne body => 0b11110010#8 :: body.encode
  | .callNear disp => 0b11101000#8 :: wordBytes disp
  | .callRm x => 0b11111111#8 :: x.bytes 0b010#3
  | .callFar off sgm => 0b10011010#8 :: (wordBytes off ++ wordBytes sgm)
  | .callFarMem m => 0b11111111#8 :: m.bytes 0b011#3
  | .jmpNear disp => 0b11101001#8 :: wordBytes disp
  | .jmpShort disp => [0b11101011#8, disp]
  | .jmpRm x => 0b11111111#8 :: x.bytes 0b100#3
  | .jmpFar off sgm => 0b11101010#8 :: (wordBytes off ++ wordBytes sgm)
  | .jmpFarMem m => 0b11111111#8 :: m.bytes 0b101#3
  | .ret => [0b11000011#8]
  | .retImm n => 0b11000010#8 :: wordBytes n
  | .retf => [0b11001011#8]
  | .retfImm n => 0b11001010#8 :: wordBytes n
  | .jo disp => [0b01110000#8, disp]
  | .jno disp => [0b01110001#8, disp]
  | .jb disp => [0b01110010#8, disp]
  | .jnb disp => [0b01110011#8, disp]
  | .jz disp => [0b01110100#8, disp]
  | .jnz disp => [0b01110101#8, disp]
  | .jbe disp => [0b01110110#8, disp]
  | .ja disp => [0b01110111#8, disp]
  | .js disp => [0b01111000#8, disp]
  | .jns disp => [0b01111001#8, disp]
  | .jp disp => [0b01111010#8, disp]
  | .jnp disp => [0b01111011#8, disp]
  | .jl disp => [0b01111100#8, disp]
  | .jnl disp => [0b01111101#8, disp]
  | .jle disp => [0b01111110#8, disp]
  | .jg disp => [0b01111111#8, disp]
  | .loop disp => [0b11100010#8, disp]
  | .loopz disp => [0b11100001#8, disp]
  | .loopnz disp => [0b11100000#8, disp]
  | .jcxz disp => [0b11100011#8, disp]
  | .int n => [0b11001101#8, n]
  | .int3 => [0b11001100#8]
  | .into => [0b11001110#8]
  | .iret => [0b11001111#8]
  | .clc => [0b11111000#8]
  | .cmc => [0b11110101#8]
  | .stc => [0b11111001#8]
  | .cld => [0b11111100#8]
  | .std => [0b11111101#8]
  | .cli => [0b11111010#8]
  | .sti => [0b11111011#8]
  | .hlt => [0b11110100#8]
  | .wait => [0b10011011#8]
  | .lock body => 0b11110000#8 :: body.encode
  | .seg sr body => (0b001#3 ++ sr.bits ++ 0b110#3) :: body.encode
  | .nop => [0b10010000#8]

/-- The bytes of an instruction. -/
abbrev encode (i : Instr) : List Byte := i.encode

/-! ## The length (R67) -/

/-- `DispLen(mod, rm)` of a memory operand. -/
def Mem.dispLen : Mem → Nat
  | .base _ => 0
  | .disp8 _ _ => 1
  | .direct _ | .disp16 _ _ => 2

/-- `DispLen(mod, rm)` of an r/m operand. -/
def Rm.dispLen : Rm → Nat
  | .reg _ => 0
  | .mem m => m.dispLen

/-- The data length by `w`. -/
def ImmW.dataLen : ImmW → Nat
  | .imm8 _  => 1
  | .imm16 _ => 2

/-- The data length by `(s, w)`: "1 if w = 0 or s = 1 else 2". -/
def ImmSW.dataLen : ImmSW → Nat
  | .imm8 _ _ | .sext8 _ => 1
  | .imm16 _ => 2

/-- The length of form REG_IMM: "2 if the opcode's bit 3 is 0, else 3". -/
def RegImm.len : RegImm → Nat
  | .r8 _ _  => 2
  | .r16 _ _ => 3

/-- The length of an instruction by its form; each prefix adds 1 (R67). -/
def Instr.length : Instr → Nat
  | .movRmReg _ _ _ x | .movRmSreg _ x | .movSregRm _ x | .pushRm x | .popRm x | .xchgRmReg _ _ x
  | .addRmReg _ _ _ x | .adcRmReg _ _ _ x | .sbbRmReg _ _ _ x | .subRmReg _ _ _ x | .cmpRmReg _ _ _ x
  | .incRm _ x | .decRm _ x | .neg _ x | .mul _ x | .imul _ x | .div _ x | .idiv _ x | .orRmReg _ _ _ x
  | .andRmReg _ _ _ x | .xorRmReg _ _ _ x | .not _ x | .rol _ _ x | .ror _ _ x | .rcl _ _ x | .rcr _ _ x
  | .shl _ _ x | .shr _ _ x | .sar _ _ x | .testRmReg _ _ x | .callRm x | .jmpRm x => 2 + x.dispLen
  | .lea _ m | .lds _ m | .les _ m | .callFarMem m | .jmpFarMem m => 2 + m.dispLen
  | .addRmImm x im | .adcRmImm x im | .sbbRmImm x im | .subRmImm x im | .cmpRmImm x im | .orRmImm x im
  | .andRmImm x im | .xorRmImm x im => 2 + x.dispLen + im.dataLen
  | .movRmImm x im | .testRmImm x im => 2 + x.dispLen + im.dataLen
  | .addAccImm im | .adcAccImm im | .sbbAccImm im | .subAccImm im | .cmpAccImm im | .orAccImm im
  | .andAccImm im | .xorAccImm im | .testAccImm im => 1 + im.dataLen
  | .movAccMem _ _ | .movMemAcc _ _ => 3
  | .movRegImm ri => ri.len
  | .pushReg _ | .pushSreg _ | .popReg _ | .popSreg _ | .xchgAxReg _ | .inDx _ | .outDx _ | .xlat | .lahf
  | .sahf | .pushf | .popf | .incReg _ | .decReg _ | .aaa | .daa | .aas | .das | .cbw | .cwd | .movs _
  | .cmps _ | .scas _ | .lods _ | .stos _ | .ret | .retf | .int3 | .into | .iret | .clc | .cmc | .stc | .cld
  | .std | .cli | .sti | .hlt | .wait | .nop => 1
  | .inPort _ _ | .outPort _ _ | .aam | .aad | .jmpShort _ | .jo _ | .jno _ | .jb _ | .jnb _ | .jz _ | .jnz _
  | .jbe _ | .ja _ | .js _ | .jns _ | .jp _ | .jnp _ | .jl _ | .jnl _ | .jle _ | .jg _ | .loop _ | .loopz _
  | .loopnz _ | .jcxz _ | .int _ => 2
  | .callNear _ | .jmpNear _ | .retImm _ | .retfImm _ => 3
  | .callFar _ _ | .jmpFar _ _ => 5
  | .lock body | .seg _ body | .rep body | .repne body => 1 + body.length

/-! ## Words of the opcode table (log 8) -/

/-- The bytes of a table word: the first byte is the most significant of the `nbits` bits (R87); zeros follow, up to the
longest instruction. -/
def tableBytes (nbits w : Nat) : List Byte :=
  let n := nbits / 8
  (List.range n).map (fun k => BitVec.ofNat 8 (w >>> (8 * (n - 1 - k)))) ++
    List.replicate (Config.maxInstrBytes - n) 0

/-- The instruction the decoder reads from a table word, none where it raises an error. -/
def decodeTableWord (nbits w : Nat) : Option Instr :=
  match decodeOne (tableBytes nbits w) 0 with
  | .ok (i, _) => some i
  | .error _   => none

end Sys2Proof
end

