-- ==== Sys2Proof/Machine/Flags.lean ====
section
/-! DEFINITION. The latches of one instruction that the formatter reads (R28, R117).

The block has no flags or condition codes (R30), so no flag computation stands here: what sets a mark on an instruction's
line are the latches `lock`, `seg` and `rep`, and the two positions the branch arithmetic needs. They are the values of one
step only (R28, R29), arguments of the row functions and no state. -/

namespace Sys2Proof.Machine

/-- The latches when an instruction has been read whole (R28). -/
structure Latches where
  /-- `lock` (R114) -/
  lock : Bool
  /-- `seg` (R115) -/
  seg : Option Sreg
  /-- `rep` (R116) -/
  rep : Option RepKind
  /-- `instr_start`: the offset of the first byte, prefixes included (R117) -/
  instrStart : Nat
  /-- the read position `c` behind the last byte (R32) -/
  pos : Nat
  /-- `LoadBase` (R9), for near targets -/
  loadBase : Word
  deriving DecidableEq, Repr

/-- No prefix (R112). -/
def Latches.none (instrStart pos : Nat) (loadBase : Word) : Latches :=
  { lock := false, seg := .none, rep := .none, instrStart := instrStart, pos := pos, loadBase := loadBase }

/-- The latches that the prefixes of an instruction set (R114 to R116), over those given. -/
def Latches.ofPrefixes : Instr → Latches → Latches
  | .lock body, L   => Latches.ofPrefixes body { L with lock := true }
  | .seg sr body, L => Latches.ofPrefixes body { L with seg := some sr }
  | .rep body, L    => Latches.ofPrefixes body { L with rep := some .rep }
  | .repne body, L  => Latches.ofPrefixes body { L with rep := some .repne }
  | .movRmReg _ _ _ _, L | .movRmImm _ _, L | .movRegImm _, L | .movAccMem _ _, L | .movMemAcc _ _, L
  | .movRmSreg _ _, L | .movSregRm _ _, L | .pushRm _, L | .pushReg _, L | .pushSreg _, L | .popRm _, L
  | .popReg _, L | .popSreg _, L | .xchgRmReg _ _ _, L | .xchgAxReg _, L | .inPort _ _, L | .inDx _, L
  | .outPort _ _, L | .outDx _, L | .xlat, L | .lea _ _, L | .lds _ _, L | .les _ _, L | .lahf, L | .sahf, L
  | .pushf, L | .popf, L | .addRmReg _ _ _ _, L | .addRmImm _ _, L | .addAccImm _, L | .adcRmReg _ _ _ _, L
  | .adcRmImm _ _, L | .adcAccImm _, L | .sbbRmReg _ _ _ _, L | .sbbRmImm _ _, L | .sbbAccImm _, L
  | .subRmReg _ _ _ _, L | .subRmImm _ _, L | .subAccImm _, L | .cmpRmReg _ _ _ _, L | .cmpRmImm _ _, L
  | .cmpAccImm _, L | .incRm _ _, L | .incReg _, L | .decRm _ _, L | .decReg _, L | .aaa, L | .daa, L | .aas, L
  | .das, L | .neg _ _, L | .mul _ _, L | .imul _ _, L | .div _ _, L | .idiv _ _, L | .aam, L | .aad, L
  | .cbw, L | .cwd, L | .orRmReg _ _ _ _, L | .orRmImm _ _, L | .orAccImm _, L | .andRmReg _ _ _ _, L
  | .andRmImm _ _, L | .andAccImm _, L | .xorRmReg _ _ _ _, L | .xorRmImm _ _, L | .xorAccImm _, L
  | .not _ _, L | .rol _ _ _, L | .ror _ _ _, L | .rcl _ _ _, L | .rcr _ _ _, L | .shl _ _ _, L | .shr _ _ _, L
  | .sar _ _ _, L | .testRmReg _ _ _, L | .testRmImm _ _, L | .testAccImm _, L | .movs _, L | .cmps _, L
  | .scas _, L | .lods _, L | .stos _, L | .callNear _, L | .callRm _, L | .callFar _ _, L | .callFarMem _, L
  | .jmpNear _, L | .jmpShort _, L | .jmpRm _, L | .jmpFar _ _, L | .jmpFarMem _, L | .ret, L | .retImm _, L
  | .retf, L | .retfImm _, L | .jo _, L | .jno _, L | .jb _, L | .jnb _, L | .jz _, L | .jnz _, L | .jbe _, L
  | .ja _, L | .js _, L | .jns _, L | .jp _, L | .jnp _, L | .jl _, L | .jnl _, L | .jle _, L | .jg _, L
  | .loop _, L | .loopz _, L | .loopnz _, L | .jcxz _, L | .int _, L | .int3, L | .into, L | .iret, L | .clc, L
  | .cmc, L | .stc, L | .cld, L | .std, L | .cli, L | .sti, L | .hlt, L | .wait, L | .nop, L => L

end Sys2Proof.Machine
end

