-- ==== Sys2Proof/Machine/Operands.lean ====
section
/-! DEFINITION. The operands (R123), their texts (R160 to R164), and the operand list of each form (R136 to R158).

`Flags.lean` holds the latches. An operand list is a function of the instruction's fields and of the latches alone: of the
segment override for a memory operand, of the positions and `LoadBase` for a branch target. -/

namespace Sys2Proof.Machine

/-! ## Names (R70 to R73) -/

/-- Table `REG8` (R70). -/
def reg8 (r : RegField) : String :=
  if r = 0 then "AL" else if r = 1 then "CL" else if r = 2 then "DL" else if r = 3 then "BL"
  else if r = 4 then "AH" else if r = 5 then "CH" else if r = 6 then "DH" else "BH"

/-- Table `REG16` (R71). -/
def reg16 (r : RegField) : String :=
  if r = 0 then "AX" else if r = 1 then "CX" else if r = 2 then "DX" else if r = 3 then "BX"
  else if r = 4 then "SP" else if r = 5 then "BP" else if r = 6 then "SI" else "DI"

/-- `if w = 1 then REG16[r] else REG8[r]` (R125). -/
def regName : Width → RegField → String
  | .byte, r => reg8 r
  | .word, r => reg16 r

/-- Table `SREG` (R72). -/
def sregName : Sreg → String
  | .es => "ES"
  | .cs => "CS"
  | .ss => "SS"
  | .ds => "DS"

/-- Table `EA` (R73). -/
def eaText : EaBase → String
  | .bxSi => "BX + SI"
  | .bxDi => "BX + DI"
  | .bpSi => "BP + SI"
  | .bpDi => "BP + DI"
  | .si   => "SI"
  | .di   => "DI"
  | .bp   => "BP"
  | .bx   => "BX"

/-- The accumulator: `if w = 1 then "AX" else "AL"` (R144, R145, R155, R156). -/
def accName : Width → String
  | .byte => "AL"
  | .word => "AX"

/-- The name of a repeat prefix (R76, R116). -/
def repName : RepKind → String
  | .rep   => "REP"
  | .repne => "REPNE"

/-- The suffix of a string mnemonic (R76, R157). -/
def strSuffix : Width → String
  | .byte => "B"
  | .word => "W"

/-! ## Numbers (R14) -/

/-- `Dec(n)` (R14). -/
def dec (n : Nat) : String := String.ofList (Nat.toDigits 10 n)

/-- `SDec(v)` (R14). -/
def sdec (v : Int) : String := if v < 0 then "-" ++ dec (-v).toNat else dec v.toNat

/-! ## Operands (R123) -/

/-- The size qualifier `qual` of a memory operand (R123). -/
inductive Qual where
  | byte
  | word
  | far
  deriving DecidableEq, Repr

/-- The qualifier's text (R162). -/
def Qual.text : Qual → String
  | .byte => "BYTE"
  | .word => "WORD"
  | .far  => "FAR"

/-- `Q(w)` of the form routines: `"WORD"` if `w = 1` and `"BYTE"` if `w = 0`. -/
def qualOf : Width → Qual
  | .byte => .byte
  | .word => .word

/-- An operand (R123). The port register `DX` is the register operand of that name, as R156 builds it (log 11). -/
inductive Operand where
  | register      (name : String)
  | memoryDirect  (a : Word) (seg : Option Sreg) (qual : Option Qual)
  | memoryIndexed (e : EaBase) (v : Int) (shown : Bool) (seg : Option Sreg) (qual : Option Qual)
  | immediate     (v : Int) (isSigned : Bool) (width : Nat)
  | literal       (t : String)
  | shortRel      (n : Int)
  | nearAbs       (t : Word)
  | farPtr        (sgm off : Word)
  deriving DecidableEq, Repr

/-- `Pre(q, seg)` (R161). -/
def operandPre (q : Option Qual) (seg : Option Sreg) : String :=
  (match q with
    | none   => ""
    | some q => q.text ++ " ") ++
  (match seg with
    | none    => ""
    | some sr => sregName sr ++ ":")

/-- A shown displacement: `" + " ++ Dec(v)` or `" - " ++ Dec(-v)` (R127, R160). -/
def dispText (v : Int) : String := if v < 0 then " - " ++ dec (-v).toNat else " + " ++ dec v.toNat

/-- A short target: `"$+" ++ Dec(N)` or `"$-" ++ Dec(-N)` (R133, R160). -/
def shortText (n : Int) : String := if n < 0 then "$-" ++ dec (-n).toNat else "$+" ++ dec n.toNat

/-- `Text(op)` (R160). -/
def Operand.text : Operand → String
  | .register n                => n
  | .memoryDirect a seg q      => operandPre q seg ++ "[" ++ dec a.toNat ++ "]"
  | .memoryIndexed e v shown seg q =>
    operandPre q seg ++ "[" ++ eaText e ++ (if shown then dispText v else "") ++ "]"
  | .immediate v isSigned _    => if isSigned then sdec v else dec v.toNat
  | .literal t                 => t
  | .shortRel n                => shortText n
  | .nearAbs t                 => dec t.toNat
  | .farPtr sgm off            => dec sgm.toNat ++ ":" ++ dec off.toNat

/-! ## The r/m operand (R124 to R127) and the immediates (R129 to R131) -/

/-- `DecodeRM` for a memory operand (R124): displacements are read as signed, a direct address is not. -/
def memOperand (m : Mem) (q : Option Qual) (L : Latches) : Operand :=
  match m with
  | .direct a   => .memoryDirect a L.seg q
  | .base e     => .memoryIndexed e 0 false L.seg q
  | .disp8 e v  => .memoryIndexed e v.toInt true L.seg q
  | .disp16 e v => .memoryIndexed e v.toInt true L.seg q

/-- `DecodeRM(mod, rm, wd, qual)` (R124): a register operand takes its name by `wd` (R125) and drops the qualifier. -/
def rmOperand (x : Rm) (wd : Width) (q : Option Qual) (L : Latches) : Operand :=
  match x with
  | .reg r => .register (regName wd r)
  | .mem m => memOperand m q L

/-- The unsigned immediate of a byte (R131). -/
def immByte (v : Byte) : Operand := .immediate v.toNat false 8

/-- The unsigned immediate of a word (R131). -/
def immWord (v : Word) : Operand := .immediate v.toNat false 16

/-- `ImmW(w)` (R130). -/
def immWOperand : ImmW → Operand
  | .imm8 v  => immByte v
  | .imm16 v => immWord v

/-- `ImmSW(s, w)` (R129): only the sign-extended byte is signed. -/
def immSWOperand : ImmSW → Operand
  | .imm8 _ v => immByte v
  | .sext8 v  => .immediate v.toInt true 16
  | .imm16 v  => immWord v

/-! ## Operand lists by form (R136 to R158) -/

/-- Form RM_REG_D (R136). -/
def opsRmRegD (d : Dir) (w : Width) (reg : RegField) (x : Rm) (L : Latches) : List Operand :=
  match d with
  | .regFirst => [.register (regName w reg), rmOperand x w none L]
  | .rmFirst  => [rmOperand x w none L, .register (regName w reg)]

/-- Form RM_REG (R137). -/
def opsRmReg (w : Width) (reg : RegField) (x : Rm) (L : Latches) : List Operand :=
  [rmOperand x w none L, .register (regName w reg)]

/-- Form REG_MEM (R138). -/
def opsRegMem (reg : RegField) (m : Mem) (L : Latches) : List Operand := [.register (reg16 reg), memOperand m none L]

/-- Form RM_SREG with `d = 0`, opcode 0x8C (R139). -/
def opsRmSreg (sr : Sreg) (x : Rm) (L : Latches) : List Operand :=
  [rmOperand x .word none L, .register (sregName sr)]

/-- Form RM_SREG with `d = 1`, opcode 0x8E (R139). -/
def opsSregRm (sr : Sreg) (x : Rm) (L : Latches) : List Operand :=
  [.register (sregName sr), rmOperand x .word none L]

/-- Form GRP_RM_IMM_SW (R140). -/
def opsRmImmSW (x : Rm) (im : ImmSW) (L : Latches) : List Operand :=
  [rmOperand x im.width (some (qualOf im.width)) L, immSWOperand im]

/-- Form GRP_RM_IMM_W (R141). -/
def opsRmImmW (x : Rm) (im : ImmW) (L : Latches) : List Operand :=
  [rmOperand x im.width (some (qualOf im.width)) L, immWOperand im]

/-- Form GRP_RM with the qualifier `Q(wd)` (R142). -/
def opsRm (wd : Width) (x : Rm) (L : Latches) : List Operand := [rmOperand x wd (some (qualOf wd)) L]

/-- Form GRP_RM for the near indirect CALL and JMP: no qualifier (R142, R162). -/
def opsRmNear (x : Rm) (L : Latches) : List Operand := [rmOperand x .word none L]

/-- Form GRP_RM for the far indirect CALL and JMP (R142, R162). -/
def opsFarMem (m : Mem) (L : Latches) : List Operand := [memOperand m (some .far) L]

/-- Form GRP_SHIFT (R143). -/
def opsShift (v : ShiftCount) (w : Width) (x : Rm) (L : Latches) : List Operand :=
  [rmOperand x w (some (qualOf w)) L,
   match v with
   | .cl  => .register "CL"
   | .one => .literal "1"]

/-- Form ACC_IMM (R144). -/
def opsAccImm (im : ImmW) : List Operand := [.register (accName im.width), immWOperand im]

/-- Form ACC_MEM, row MOV_ACC_MEM (R145). -/
def opsAccMem (w : Width) (a : Word) (L : Latches) : List Operand :=
  [.register (accName w), .memoryDirect a L.seg none]

/-- Form ACC_MEM, row MOV_MEM_ACC (R145). -/
def opsMemAcc (w : Width) (a : Word) (L : Latches) : List Operand :=
  [.memoryDirect a L.seg none, .register (accName w)]

/-- Form REG_IMM (R146). -/
def opsRegImm : RegImm → List Operand
  | .r8 r v  => [.register (reg8 r), immByte v]
  | .r16 r v => [.register (reg16 r), immWord v]

/-- Form REG16 (R147), all rows but XCHG_AX_REG. -/
def opsReg16 (r : RegField) : List Operand := [.register (reg16 r)]

/-- Form REG16, row XCHG_AX_REG (R147). -/
def opsAxReg (r : RegField) : List Operand := [.register "AX", .register (reg16 r)]

/-- Form SREG (R148). -/
def opsSreg (sr : Sreg) : List Operand := [.register (sregName sr)]

/-- `N <- d + (c - instr_start)` (R133). -/
def shortTarget (disp : Byte) (L : Latches) : Int := disp.toInt + ((L.pos : Int) - (L.instrStart : Int))

/-- Form REL8 (R149). -/
def opsRel8 (disp : Byte) (L : Latches) : List Operand := [.shortRel (shortTarget disp L)]

/-- `T <- (LoadBase + c + d) mod 65536` (R134). -/
def nearTarget (disp : Word) (L : Latches) : Word := L.loadBase + BitVec.ofNat 16 L.pos + disp

/-- Form REL16 (R150). -/
def opsRel16 (disp : Word) (L : Latches) : List Operand := [.nearAbs (nearTarget disp L)]

/-- Form FARPTR (R151): the offset is read first, the segment is printed first (R135). -/
def opsFarPtr (off sgm : Word) : List Operand := [.farPtr sgm off]

/-- Form IMM8 (R152). -/
def opsImm8 (n : Byte) : List Operand := [immByte n]

/-- Form IMM16 (R153). -/
def opsImm16 (n : Word) : List Operand := [immWord n]

/-- Form PORT8, row IN_PORT (R155). -/
def opsInPort (w : Width) (p : Byte) : List Operand := [.register (accName w), immByte p]

/-- Form PORT8, row OUT_PORT (R155). -/
def opsOutPort (w : Width) (p : Byte) : List Operand := [immByte p, .register (accName w)]

/-- Form PORTDX, row IN_DX (R156). -/
def opsInDx (w : Width) : List Operand := [.register (accName w), .register "DX"]

/-- Form PORTDX, row OUT_DX (R156). -/
def opsOutDx (w : Width) : List Operand := [.register "DX", .register (accName w)]

end Sys2Proof.Machine
end

