-- ==== Sys2Proof/Machine/Ops.lean ====
section
/-! DEFINITION. The operations over the state: reading the buffer, the instruction pointer, rendering a line, emitting it,
ending the run, and taking a decode error. There is no return from an error (R388). -/

namespace Sys2Proof.Machine

/-! ## Memory (R46, R53) -/

/-- The bytes from an offset on, each at its address. -/
def cellsFrom (start : Nat) : List Byte → List Host.Cell
  | []     => []
  | b :: r => (start, b) :: cellsFrom (start + 1) r

/-- The input space as address and byte pairs: offsets 0 to Len - 1, one byte each (R46, R53; log 6). -/
def State.memory (s : State) : List Host.Cell := cellsFrom 0 s.buf

/-- What an unlisted address reads as: no value, the offset does not exist (R48, R53; log 6). -/
def unlistedByte : Option Byte := none

/-- The canonical form: addresses strictly rising, no entry equal to what an unlisted address reads as. -/
def Memory.wf : List Host.Cell → Bool
  | []                    => true
  | [c]                   => decide (some c.2 ≠ unlistedByte)
  | (a, x) :: (b, y) :: r => decide (a < b) && decide (some x ≠ unlistedByte) && Memory.wf ((b, y) :: r)

/-- One byte of a memory. -/
def Memory.read (m : List Host.Cell) (a : Nat) : Option Byte :=
  match m.find? (fun c => c.1 == a) with
  | some c => some c.2
  | none   => unlistedByte

/-- `MemRead(a, 1)` (R13): the byte of the buffer at an offset, none where the offset does not exist. -/
def memRead (s : State) (a : Nat) : Option Byte := s.buf[a]?

/-- `IP(o) = (LoadBase + o) mod 65536` (R33). -/
def State.ip (s : State) (o : Nat) : Word := s.loadBase + BitVec.ofNat 16 o

/-! ## The formatter (R159) -/

/-- A resolved row with its operands, what a form routine answers (R112). `mnemonic` has the suffix of a string row. -/
structure Row where
  mnemonic : String
  ops      : List Operand
  deriving DecidableEq, Repr

/-- `Join` (R14). -/
def joinOps : List String → String
  | []          => ""
  | [t]         => t
  | t :: u :: r => t ++ ", " ++ joinOps (u :: r)

/-- What stands before the mnemonic (R159). -/
def lineLead (L : Latches) : String :=
  (if L.lock then "LOCK " else "") ++
  (match L.rep with
    | none   => ""
    | some k => repName k ++ " ")

/-- The operands with the space before them, nothing where there is none (R159). -/
def opsText : List Operand → String
  | []       => ""
  | op :: r  => " " ++ joinOps ((op :: r).map Operand.text)

/-- `Render(row, ops)` (R159). -/
def render (L : Latches) (row : Row) : String := lineLead L ++ row.mnemonic ++ opsText row.ops

/-! ## What a step does to the state (R111) -/

/-- The latches when instruction `i` has been read at the cursor (R28, R112). -/
def latchesOf (i : Instr) (s : State) : Latches :=
  Latches.ofPrefixes i (Latches.none s.cursor (s.cursor + i.length) s.loadBase)

/-- `Emit(line); S.cursor <- next` (R111). -/
def State.emit (s : State) (line : String) (next : Nat) : State :=
  { s with listing := s.listing ++ [line], cursor := next }

/-- The meaning of an instruction whose row is `row`: its line is appended and the cursor moves past it (R111, R112). A term
that is no instruction has none (log 10). -/
def emitRow (i : Instr) (row : Latches → Row) (s : State) : Host.Outcome State Fault Refusal :=
  if i.wf then .next (s.emit (render (latchesOf i s) (row (latchesOf i s))) (s.cursor + i.length))
  else .refused .illFormed

/-- The end of the buffer: `S.status <- Done` (R111). -/
def State.finish (s : State) : State := { s with status := .done }

/-- Taking a decode error (R387): the status and the record are written, cursor and listing stay (log 5). -/
def State.takeError (s : State) (e : ErrorRecord) : State := { s with status := .error, error := some e }

/-! ## What the host reads (R168, R403) -/

/-- Each line followed by one LF. -/
def serialise : List String → String
  | []     => ""
  | t :: r => t ++ "\n" ++ serialise r

/-- The listing as one byte string, as text (R168). The lines are taken as they are, the header line too where it ends in a
space (log 20). -/
def State.serialised (s : State) : String := serialise s.listing

end Sys2Proof.Machine
end

