-- ==== Sys2Proof/Machine/Arithmetic.lean ====
section
/-! DEFINITION. The meanings of the arithmetic instructions (spec/42_arithmetic.md, R242 to R273).

A row function gives what a form routine answers (R112): the mnemonic and the operand list. The meaning appends the rendered
line and moves the cursor past the instruction (`emitRow`). Nothing is executed (R4). -/

namespace Sys2Proof.Machine

/-- ADD, row ADD_RM_REG: form RM_REG_D (R242, R136). -/
def rowAddRmReg (d : Dir) (w : Width) (reg : RegField) (x : Rm) (L : Latches) : Row :=
  { mnemonic := "ADD", ops := opsRmRegD d w reg x L }

/-- ADD, row ADD_RM_REG (R242). -/
def execAddRmReg (d : Dir) (w : Width) (reg : RegField) (x : Rm) (s : State) : Host.Outcome State Fault Refusal :=
  emitRow (.addRmReg d w reg x) (rowAddRmReg d w reg x) s

/-- ADD, row ADD_RM_IMM: form GRP_RM_IMM_SW (R243, R140). -/
def rowAddRmImm (x : Rm) (im : ImmSW) (L : Latches) : Row :=
  { mnemonic := "ADD", ops := opsRmImmSW x im L }

/-- ADD, row ADD_RM_IMM (R243). -/
def execAddRmImm (x : Rm) (im : ImmSW) (s : State) : Host.Outcome State Fault Refusal :=
  emitRow (.addRmImm x im) (rowAddRmImm x im) s

/-- ADD, row ADD_ACC_IMM: form ACC_IMM (R244, R144). -/
def rowAddAccImm (im : ImmW) (_L : Latches) : Row :=
  { mnemonic := "ADD", ops := opsAccImm im }

/-- ADD, row ADD_ACC_IMM (R244). -/
def execAddAccImm (im : ImmW) (s : State) : Host.Outcome State Fault Refusal :=
  emitRow (.addAccImm im) (rowAddAccImm im) s

/-- ADC, row ADC_RM_REG: form RM_REG_D (R245, R136). -/
def rowAdcRmReg (d : Dir) (w : Width) (reg : RegField) (x : Rm) (L : Latches) : Row :=
  { mnemonic := "ADC", ops := opsRmRegD d w reg x L }

/-- ADC, row ADC_RM_REG (R245). -/
def execAdcRmReg (d : Dir) (w : Width) (reg : RegField) (x : Rm) (s : State) : Host.Outcome State Fault Refusal :=
  emitRow (.adcRmReg d w reg x) (rowAdcRmReg d w reg x) s

/-- ADC, row ADC_RM_IMM: form GRP_RM_IMM_SW (R246, R140). -/
def rowAdcRmImm (x : Rm) (im : ImmSW) (L : Latches) : Row :=
  { mnemonic := "ADC", ops := opsRmImmSW x im L }

/-- ADC, row ADC_RM_IMM (R246). -/
def execAdcRmImm (x : Rm) (im : ImmSW) (s : State) : Host.Outcome State Fault Refusal :=
  emitRow (.adcRmImm x im) (rowAdcRmImm x im) s

/-- ADC, row ADC_ACC_IMM: form ACC_IMM (R247, R144). -/
def rowAdcAccImm (im : ImmW) (_L : Latches) : Row :=
  { mnemonic := "ADC", ops := opsAccImm im }

/-- ADC, row ADC_ACC_IMM (R247). -/
def execAdcAccImm (im : ImmW) (s : State) : Host.Outcome State Fault Refusal :=
  emitRow (.adcAccImm im) (rowAdcAccImm im) s

/-- SBB, row SBB_RM_REG: form RM_REG_D (R248, R136). -/
def rowSbbRmReg (d : Dir) (w : Width) (reg : RegField) (x : Rm) (L : Latches) : Row :=
  { mnemonic := "SBB", ops := opsRmRegD d w reg x L }

/-- SBB, row SBB_RM_REG (R248). -/
def execSbbRmReg (d : Dir) (w : Width) (reg : RegField) (x : Rm) (s : State) : Host.Outcome State Fault Refusal :=
  emitRow (.sbbRmReg d w reg x) (rowSbbRmReg d w reg x) s

/-- SBB, row SBB_RM_IMM: form GRP_RM_IMM_SW (R249, R140). -/
def rowSbbRmImm (x : Rm) (im : ImmSW) (L : Latches) : Row :=
  { mnemonic := "SBB", ops := opsRmImmSW x im L }

/-- SBB, row SBB_RM_IMM (R249). -/
def execSbbRmImm (x : Rm) (im : ImmSW) (s : State) : Host.Outcome State Fault Refusal :=
  emitRow (.sbbRmImm x im) (rowSbbRmImm x im) s

/-- SBB, row SBB_ACC_IMM: form ACC_IMM (R250, R144). -/
def rowSbbAccImm (im : ImmW) (_L : Latches) : Row :=
  { mnemonic := "SBB", ops := opsAccImm im }

/-- SBB, row SBB_ACC_IMM (R250). -/
def execSbbAccImm (im : ImmW) (s : State) : Host.Outcome State Fault Refusal :=
  emitRow (.sbbAccImm im) (rowSbbAccImm im) s

/-- SUB, row SUB_RM_REG: form RM_REG_D (R251, R136). -/
def rowSubRmReg (d : Dir) (w : Width) (reg : RegField) (x : Rm) (L : Latches) : Row :=
  { mnemonic := "SUB", ops := opsRmRegD d w reg x L }

/-- SUB, row SUB_RM_REG (R251). -/
def execSubRmReg (d : Dir) (w : Width) (reg : RegField) (x : Rm) (s : State) : Host.Outcome State Fault Refusal :=
  emitRow (.subRmReg d w reg x) (rowSubRmReg d w reg x) s

/-- SUB, row SUB_RM_IMM: form GRP_RM_IMM_SW (R252, R140). -/
def rowSubRmImm (x : Rm) (im : ImmSW) (L : Latches) : Row :=
  { mnemonic := "SUB", ops := opsRmImmSW x im L }

/-- SUB, row SUB_RM_IMM (R252). -/
def execSubRmImm (x : Rm) (im : ImmSW) (s : State) : Host.Outcome State Fault Refusal :=
  emitRow (.subRmImm x im) (rowSubRmImm x im) s

/-- SUB, row SUB_ACC_IMM: form ACC_IMM (R253, R144). -/
def rowSubAccImm (im : ImmW) (_L : Latches) : Row :=
  { mnemonic := "SUB", ops := opsAccImm im }

/-- SUB, row SUB_ACC_IMM (R253). -/
def execSubAccImm (im : ImmW) (s : State) : Host.Outcome State Fault Refusal :=
  emitRow (.subAccImm im) (rowSubAccImm im) s

/-- CMP, row CMP_RM_REG: form RM_REG_D (R254, R136). -/
def rowCmpRmReg (d : Dir) (w : Width) (reg : RegField) (x : Rm) (L : Latches) : Row :=
  { mnemonic := "CMP", ops := opsRmRegD d w reg x L }

/-- CMP, row CMP_RM_REG (R254). -/
def execCmpRmReg (d : Dir) (w : Width) (reg : RegField) (x : Rm) (s : State) : Host.Outcome State Fault Refusal :=
  emitRow (.cmpRmReg d w reg x) (rowCmpRmReg d w reg x) s

/-- CMP, row CMP_RM_IMM: form GRP_RM_IMM_SW (R255, R140). -/
def rowCmpRmImm (x : Rm) (im : ImmSW) (L : Latches) : Row :=
  { mnemonic := "CMP", ops := opsRmImmSW x im L }

/-- CMP, row CMP_RM_IMM (R255). -/
def execCmpRmImm (x : Rm) (im : ImmSW) (s : State) : Host.Outcome State Fault Refusal :=
  emitRow (.cmpRmImm x im) (rowCmpRmImm x im) s

/-- CMP, row CMP_ACC_IMM: form ACC_IMM (R256, R144). -/
def rowCmpAccImm (im : ImmW) (_L : Latches) : Row :=
  { mnemonic := "CMP", ops := opsAccImm im }

/-- CMP, row CMP_ACC_IMM (R256). -/
def execCmpAccImm (im : ImmW) (s : State) : Host.Outcome State Fault Refusal :=
  emitRow (.cmpAccImm im) (rowCmpAccImm im) s

/-- INC, row INC_RM: form GRP_RM (R257, R142). -/
def rowIncRm (w : Width) (x : Rm) (L : Latches) : Row :=
  { mnemonic := "INC", ops := opsRm w x L }

/-- INC, row INC_RM (R257). -/
def execIncRm (w : Width) (x : Rm) (s : State) : Host.Outcome State Fault Refusal :=
  emitRow (.incRm w x) (rowIncRm w x) s

/-- INC, row INC_REG: form REG16 (R258, R147). -/
def rowIncReg (r : RegField) (_L : Latches) : Row :=
  { mnemonic := "INC", ops := opsReg16 r }

/-- INC, row INC_REG (R258). -/
def execIncReg (r : RegField) (s : State) : Host.Outcome State Fault Refusal :=
  emitRow (.incReg r) (rowIncReg r) s

/-- DEC, row DEC_RM: form GRP_RM (R259, R142). -/
def rowDecRm (w : Width) (x : Rm) (L : Latches) : Row :=
  { mnemonic := "DEC", ops := opsRm w x L }

/-- DEC, row DEC_RM (R259). -/
def execDecRm (w : Width) (x : Rm) (s : State) : Host.Outcome State Fault Refusal :=
  emitRow (.decRm w x) (rowDecRm w x) s

/-- DEC, row DEC_REG: form REG16 (R260, R147). -/
def rowDecReg (r : RegField) (_L : Latches) : Row :=
  { mnemonic := "DEC", ops := opsReg16 r }

/-- DEC, row DEC_REG (R260). -/
def execDecReg (r : RegField) (s : State) : Host.Outcome State Fault Refusal :=
  emitRow (.decReg r) (rowDecReg r) s

/-- AAA, row AAA: form NONE (R261, R158). -/
def rowAaa (_L : Latches) : Row :=
  { mnemonic := "AAA", ops := [] }

/-- AAA, row AAA (R261). -/
def execAaa (s : State) : Host.Outcome State Fault Refusal :=
  emitRow .aaa rowAaa s

/-- DAA, row DAA: form NONE (R262, R158). -/
def rowDaa (_L : Latches) : Row :=
  { mnemonic := "DAA", ops := [] }

/-- DAA, row DAA (R262). -/
def execDaa (s : State) : Host.Outcome State Fault Refusal :=
  emitRow .daa rowDaa s

/-- AAS, row AAS: form NONE (R263, R158). -/
def rowAas (_L : Latches) : Row :=
  { mnemonic := "AAS", ops := [] }

/-- AAS, row AAS (R263). -/
def execAas (s : State) : Host.Outcome State Fault Refusal :=
  emitRow .aas rowAas s

/-- DAS, row DAS: form NONE (R264, R158). -/
def rowDas (_L : Latches) : Row :=
  { mnemonic := "DAS", ops := [] }

/-- DAS, row DAS (R264). -/
def execDas (s : State) : Host.Outcome State Fault Refusal :=
  emitRow .das rowDas s

/-- NEG, row NEG: form GRP_RM (R265, R142). -/
def rowNeg (w : Width) (x : Rm) (L : Latches) : Row :=
  { mnemonic := "NEG", ops := opsRm w x L }

/-- NEG, row NEG (R265). -/
def execNeg (w : Width) (x : Rm) (s : State) : Host.Outcome State Fault Refusal :=
  emitRow (.neg w x) (rowNeg w x) s

/-- MUL, row MUL: form GRP_RM (R266, R142). -/
def rowMul (w : Width) (x : Rm) (L : Latches) : Row :=
  { mnemonic := "MUL", ops := opsRm w x L }

/-- MUL, row MUL (R266). -/
def execMul (w : Width) (x : Rm) (s : State) : Host.Outcome State Fault Refusal :=
  emitRow (.mul w x) (rowMul w x) s

/-- IMUL, row IMUL: form GRP_RM (R267, R142). -/
def rowImul (w : Width) (x : Rm) (L : Latches) : Row :=
  { mnemonic := "IMUL", ops := opsRm w x L }

/-- IMUL, row IMUL (R267). -/
def execImul (w : Width) (x : Rm) (s : State) : Host.Outcome State Fault Refusal :=
  emitRow (.imul w x) (rowImul w x) s

/-- DIV, row DIV: form GRP_RM (R268, R142). -/
def rowDiv (w : Width) (x : Rm) (L : Latches) : Row :=
  { mnemonic := "DIV", ops := opsRm w x L }

/-- DIV, row DIV (R268). -/
def execDiv (w : Width) (x : Rm) (s : State) : Host.Outcome State Fault Refusal :=
  emitRow (.div w x) (rowDiv w x) s

/-- IDIV, row IDIV: form GRP_RM (R269, R142). -/
def rowIdiv (w : Width) (x : Rm) (L : Latches) : Row :=
  { mnemonic := "IDIV", ops := opsRm w x L }

/-- IDIV, row IDIV (R269). -/
def execIdiv (w : Width) (x : Rm) (s : State) : Host.Outcome State Fault Refusal :=
  emitRow (.idiv w x) (rowIdiv w x) s

/-- AAM, row AAM: form AA (R270, R154). -/
def rowAam (_L : Latches) : Row :=
  { mnemonic := "AAM", ops := [] }

/-- AAM, row AAM (R270). -/
def execAam (s : State) : Host.Outcome State Fault Refusal :=
  emitRow .aam rowAam s

/-- AAD, row AAD: form AA (R271, R154). -/
def rowAad (_L : Latches) : Row :=
  { mnemonic := "AAD", ops := [] }

/-- AAD, row AAD (R271). -/
def execAad (s : State) : Host.Outcome State Fault Refusal :=
  emitRow .aad rowAad s

/-- CBW, row CBW: form NONE (R272, R158). -/
def rowCbw (_L : Latches) : Row :=
  { mnemonic := "CBW", ops := [] }

/-- CBW, row CBW (R272). -/
def execCbw (s : State) : Host.Outcome State Fault Refusal :=
  emitRow .cbw rowCbw s

/-- CWD, row CWD: form NONE (R273, R158). -/
def rowCwd (_L : Latches) : Row :=
  { mnemonic := "CWD", ops := [] }

/-- CWD, row CWD (R273). -/
def execCwd (s : State) : Host.Outcome State Fault Refusal :=
  emitRow .cwd rowCwd s

end Sys2Proof.Machine
end

