-- ==== Sys2Proof/Machine/ControlTransfer.lean ====
section
/-! DEFINITION. The meanings of the control-transfer instructions (spec/45_control_transfer.md, R322 to R358).

A row function gives what a form routine answers (R112): the mnemonic and the operand list. The meaning appends the rendered
line and moves the cursor past the instruction (`emitRow`). Nothing is executed (R4). -/

namespace Sys2Proof.Machine

/-- CALL, row CALL_NEAR: form REL16 (R322, R150). -/
def rowCallNear (disp : Word) (L : Latches) : Row :=
  { mnemonic := "CALL", ops := opsRel16 disp L }

/-- CALL, row CALL_NEAR (R322). -/
def execCallNear (disp : Word) (s : State) : Host.Outcome State Fault Refusal :=
  emitRow (.callNear disp) (rowCallNear disp) s

/-- CALL, row CALL_RM: form GRP_RM (R323, R142). -/
def rowCallRm (x : Rm) (L : Latches) : Row :=
  { mnemonic := "CALL", ops := opsRmNear x L }

/-- CALL, row CALL_RM (R323). -/
def execCallRm (x : Rm) (s : State) : Host.Outcome State Fault Refusal :=
  emitRow (.callRm x) (rowCallRm x) s

/-- CALL, row CALL_FAR: form FARPTR (R324, R151). -/
def rowCallFar (off : Word) (sgm : Word) (_L : Latches) : Row :=
  { mnemonic := "CALL", ops := opsFarPtr off sgm }

/-- CALL, row CALL_FAR (R324). -/
def execCallFar (off : Word) (sgm : Word) (s : State) : Host.Outcome State Fault Refusal :=
  emitRow (.callFar off sgm) (rowCallFar off sgm) s

/-- CALL, row CALL_FAR_MEM: form GRP_RM (R325, R142). -/
def rowCallFarMem (m : Mem) (L : Latches) : Row :=
  { mnemonic := "CALL", ops := opsFarMem m L }

/-- CALL, row CALL_FAR_MEM (R325). -/
def execCallFarMem (m : Mem) (s : State) : Host.Outcome State Fault Refusal :=
  emitRow (.callFarMem m) (rowCallFarMem m) s

/-- JMP, row JMP_NEAR: form REL16 (R326, R150). -/
def rowJmpNear (disp : Word) (L : Latches) : Row :=
  { mnemonic := "JMP", ops := opsRel16 disp L }

/-- JMP, row JMP_NEAR (R326). -/
def execJmpNear (disp : Word) (s : State) : Host.Outcome State Fault Refusal :=
  emitRow (.jmpNear disp) (rowJmpNear disp) s

/-- JMP, row JMP_SHORT: form REL8 (R327, R149). -/
def rowJmpShort (disp : Byte) (L : Latches) : Row :=
  { mnemonic := "JMP", ops := opsRel8 disp L }

/-- JMP, row JMP_SHORT (R327). -/
def execJmpShort (disp : Byte) (s : State) : Host.Outcome State Fault Refusal :=
  emitRow (.jmpShort disp) (rowJmpShort disp) s

/-- JMP, row JMP_RM: form GRP_RM (R328, R142). -/
def rowJmpRm (x : Rm) (L : Latches) : Row :=
  { mnemonic := "JMP", ops := opsRmNear x L }

/-- JMP, row JMP_RM (R328). -/
def execJmpRm (x : Rm) (s : State) : Host.Outcome State Fault Refusal :=
  emitRow (.jmpRm x) (rowJmpRm x) s

/-- JMP, row JMP_FAR: form FARPTR (R329, R151). -/
def rowJmpFar (off : Word) (sgm : Word) (_L : Latches) : Row :=
  { mnemonic := "JMP", ops := opsFarPtr off sgm }

/-- JMP, row JMP_FAR (R329). -/
def execJmpFar (off : Word) (sgm : Word) (s : State) : Host.Outcome State Fault Refusal :=
  emitRow (.jmpFar off sgm) (rowJmpFar off sgm) s

/-- JMP, row JMP_FAR_MEM: form GRP_RM (R330, R142). -/
def rowJmpFarMem (m : Mem) (L : Latches) : Row :=
  { mnemonic := "JMP", ops := opsFarMem m L }

/-- JMP, row JMP_FAR_MEM (R330). -/
def execJmpFarMem (m : Mem) (s : State) : Host.Outcome State Fault Refusal :=
  emitRow (.jmpFarMem m) (rowJmpFarMem m) s

/-- RET, row RET: form NONE (R331, R158). -/
def rowRet (_L : Latches) : Row :=
  { mnemonic := "RET", ops := [] }

/-- RET, row RET (R331). -/
def execRet (s : State) : Host.Outcome State Fault Refusal :=
  emitRow .ret rowRet s

/-- RET, row RET_IMM: form IMM16 (R332, R153). -/
def rowRetImm (n : Word) (_L : Latches) : Row :=
  { mnemonic := "RET", ops := opsImm16 n }

/-- RET, row RET_IMM (R332). -/
def execRetImm (n : Word) (s : State) : Host.Outcome State Fault Refusal :=
  emitRow (.retImm n) (rowRetImm n) s

/-- RETF, row RETF: form NONE (R333, R158). -/
def rowRetf (_L : Latches) : Row :=
  { mnemonic := "RETF", ops := [] }

/-- RETF, row RETF (R333). -/
def execRetf (s : State) : Host.Outcome State Fault Refusal :=
  emitRow .retf rowRetf s

/-- RETF, row RETF_IMM: form IMM16 (R334, R153). -/
def rowRetfImm (n : Word) (_L : Latches) : Row :=
  { mnemonic := "RETF", ops := opsImm16 n }

/-- RETF, row RETF_IMM (R334). -/
def execRetfImm (n : Word) (s : State) : Host.Outcome State Fault Refusal :=
  emitRow (.retfImm n) (rowRetfImm n) s

/-- JO, row JO: form REL8 (R335, R149). -/
def rowJo (disp : Byte) (L : Latches) : Row :=
  { mnemonic := "JO", ops := opsRel8 disp L }

/-- JO, row JO (R335). -/
def execJo (disp : Byte) (s : State) : Host.Outcome State Fault Refusal :=
  emitRow (.jo disp) (rowJo disp) s

/-- JNO, row JNO: form REL8 (R336, R149). -/
def rowJno (disp : Byte) (L : Latches) : Row :=
  { mnemonic := "JNO", ops := opsRel8 disp L }

/-- JNO, row JNO (R336). -/
def execJno (disp : Byte) (s : State) : Host.Outcome State Fault Refusal :=
  emitRow (.jno disp) (rowJno disp) s

/-- JB, row JB: form REL8 (R337, R149). -/
def rowJb (disp : Byte) (L : Latches) : Row :=
  { mnemonic := "JB", ops := opsRel8 disp L }

/-- JB, row JB (R337). -/
def execJb (disp : Byte) (s : State) : Host.Outcome State Fault Refusal :=
  emitRow (.jb disp) (rowJb disp) s

/-- JNB, row JNB: form REL8 (R338, R149). -/
def rowJnb (disp : Byte) (L : Latches) : Row :=
  { mnemonic := "JNB", ops := opsRel8 disp L }

/-- JNB, row JNB (R338). -/
def execJnb (disp : Byte) (s : State) : Host.Outcome State Fault Refusal :=
  emitRow (.jnb disp) (rowJnb disp) s

/-- JZ, row JZ: form REL8 (R339, R149). -/
def rowJz (disp : Byte) (L : Latches) : Row :=
  { mnemonic := "JZ", ops := opsRel8 disp L }

/-- JZ, row JZ (R339). -/
def execJz (disp : Byte) (s : State) : Host.Outcome State Fault Refusal :=
  emitRow (.jz disp) (rowJz disp) s

/-- JNZ, row JNZ: form REL8 (R340, R149). -/
def rowJnz (disp : Byte) (L : Latches) : Row :=
  { mnemonic := "JNZ", ops := opsRel8 disp L }

/-- JNZ, row JNZ (R340). -/
def execJnz (disp : Byte) (s : State) : Host.Outcome State Fault Refusal :=
  emitRow (.jnz disp) (rowJnz disp) s

/-- JBE, row JBE: form REL8 (R341, R149). -/
def rowJbe (disp : Byte) (L : Latches) : Row :=
  { mnemonic := "JBE", ops := opsRel8 disp L }

/-- JBE, row JBE (R341). -/
def execJbe (disp : Byte) (s : State) : Host.Outcome State Fault Refusal :=
  emitRow (.jbe disp) (rowJbe disp) s

/-- JA, row JA: form REL8 (R342, R149). -/
def rowJa (disp : Byte) (L : Latches) : Row :=
  { mnemonic := "JA", ops := opsRel8 disp L }

/-- JA, row JA (R342). -/
def execJa (disp : Byte) (s : State) : Host.Outcome State Fault Refusal :=
  emitRow (.ja disp) (rowJa disp) s

/-- JS, row JS: form REL8 (R343, R149). -/
def rowJs (disp : Byte) (L : Latches) : Row :=
  { mnemonic := "JS", ops := opsRel8 disp L }

/-- JS, row JS (R343). -/
def execJs (disp : Byte) (s : State) : Host.Outcome State Fault Refusal :=
  emitRow (.js disp) (rowJs disp) s

/-- JNS, row JNS: form REL8 (R344, R149). -/
def rowJns (disp : Byte) (L : Latches) : Row :=
  { mnemonic := "JNS", ops := opsRel8 disp L }

/-- JNS, row JNS (R344). -/
def execJns (disp : Byte) (s : State) : Host.Outcome State Fault Refusal :=
  emitRow (.jns disp) (rowJns disp) s

/-- JP, row JP: form REL8 (R345, R149). -/
def rowJp (disp : Byte) (L : Latches) : Row :=
  { mnemonic := "JP", ops := opsRel8 disp L }

/-- JP, row JP (R345). -/
def execJp (disp : Byte) (s : State) : Host.Outcome State Fault Refusal :=
  emitRow (.jp disp) (rowJp disp) s

/-- JNP, row JNP: form REL8 (R346, R149). -/
def rowJnp (disp : Byte) (L : Latches) : Row :=
  { mnemonic := "JNP", ops := opsRel8 disp L }

/-- JNP, row JNP (R346). -/
def execJnp (disp : Byte) (s : State) : Host.Outcome State Fault Refusal :=
  emitRow (.jnp disp) (rowJnp disp) s

/-- JL, row JL: form REL8 (R347, R149). -/
def rowJl (disp : Byte) (L : Latches) : Row :=
  { mnemonic := "JL", ops := opsRel8 disp L }

/-- JL, row JL (R347). -/
def execJl (disp : Byte) (s : State) : Host.Outcome State Fault Refusal :=
  emitRow (.jl disp) (rowJl disp) s

/-- JNL, row JNL: form REL8 (R348, R149). -/
def rowJnl (disp : Byte) (L : Latches) : Row :=
  { mnemonic := "JNL", ops := opsRel8 disp L }

/-- JNL, row JNL (R348). -/
def execJnl (disp : Byte) (s : State) : Host.Outcome State Fault Refusal :=
  emitRow (.jnl disp) (rowJnl disp) s

/-- JLE, row JLE: form REL8 (R349, R149). -/
def rowJle (disp : Byte) (L : Latches) : Row :=
  { mnemonic := "JLE", ops := opsRel8 disp L }

/-- JLE, row JLE (R349). -/
def execJle (disp : Byte) (s : State) : Host.Outcome State Fault Refusal :=
  emitRow (.jle disp) (rowJle disp) s

/-- JG, row JG: form REL8 (R350, R149). -/
def rowJg (disp : Byte) (L : Latches) : Row :=
  { mnemonic := "JG", ops := opsRel8 disp L }

/-- JG, row JG (R350). -/
def execJg (disp : Byte) (s : State) : Host.Outcome State Fault Refusal :=
  emitRow (.jg disp) (rowJg disp) s

/-- LOOP, row LOOP: form REL8 (R351, R149). -/
def rowLoop (disp : Byte) (L : Latches) : Row :=
  { mnemonic := "LOOP", ops := opsRel8 disp L }

/-- LOOP, row LOOP (R351). -/
def execLoop (disp : Byte) (s : State) : Host.Outcome State Fault Refusal :=
  emitRow (.loop disp) (rowLoop disp) s

/-- LOOPZ, row LOOPZ: form REL8 (R352, R149). -/
def rowLoopz (disp : Byte) (L : Latches) : Row :=
  { mnemonic := "LOOPZ", ops := opsRel8 disp L }

/-- LOOPZ, row LOOPZ (R352). -/
def execLoopz (disp : Byte) (s : State) : Host.Outcome State Fault Refusal :=
  emitRow (.loopz disp) (rowLoopz disp) s

/-- LOOPNZ, row LOOPNZ: form REL8 (R353, R149). -/
def rowLoopnz (disp : Byte) (L : Latches) : Row :=
  { mnemonic := "LOOPNZ", ops := opsRel8 disp L }

/-- LOOPNZ, row LOOPNZ (R353). -/
def execLoopnz (disp : Byte) (s : State) : Host.Outcome State Fault Refusal :=
  emitRow (.loopnz disp) (rowLoopnz disp) s

/-- JCXZ, row JCXZ: form REL8 (R354, R149). -/
def rowJcxz (disp : Byte) (L : Latches) : Row :=
  { mnemonic := "JCXZ", ops := opsRel8 disp L }

/-- JCXZ, row JCXZ (R354). -/
def execJcxz (disp : Byte) (s : State) : Host.Outcome State Fault Refusal :=
  emitRow (.jcxz disp) (rowJcxz disp) s

/-- INT, row INT: form IMM8 (R355, R152). -/
def rowInt (n : Byte) (_L : Latches) : Row :=
  { mnemonic := "INT", ops := opsImm8 n }

/-- INT, row INT (R355). -/
def execInt (n : Byte) (s : State) : Host.Outcome State Fault Refusal :=
  emitRow (.int n) (rowInt n) s

/-- INT3, row INT3: form NONE (R356, R158). -/
def rowInt3 (_L : Latches) : Row :=
  { mnemonic := "INT3", ops := [] }

/-- INT3, row INT3 (R356). -/
def execInt3 (s : State) : Host.Outcome State Fault Refusal :=
  emitRow .int3 rowInt3 s

/-- INTO, row INTO: form NONE (R357, R158). -/
def rowInto (_L : Latches) : Row :=
  { mnemonic := "INTO", ops := [] }

/-- INTO, row INTO (R357). -/
def execInto (s : State) : Host.Outcome State Fault Refusal :=
  emitRow .into rowInto s

/-- IRET, row IRET: form NONE (R358, R158). -/
def rowIret (_L : Latches) : Row :=
  { mnemonic := "IRET", ops := [] }

/-- IRET, row IRET (R358). -/
def execIret (s : State) : Host.Outcome State Fault Refusal :=
  emitRow .iret rowIret s

end Sys2Proof.Machine
end

