-- ==== Sys2Proof/Machine/DataTransfer.lean ====
section
/-! DEFINITION. The meanings of the data-transfer instructions (spec/41_data_transfer.md, R202 to R228).

A row function gives what a form routine answers (R112): the mnemonic and the operand list. The meaning appends the rendered
line and moves the cursor past the instruction (`emitRow`). Nothing is executed (R4). -/

namespace Sys2Proof.Machine

/-- MOV, row MOV_RM_REG: form RM_REG_D (R202, R136). -/
def rowMovRmReg (d : Dir) (w : Width) (reg : RegField) (x : Rm) (L : Latches) : Row :=
  { mnemonic := "MOV", ops := opsRmRegD d w reg x L }

/-- MOV, row MOV_RM_REG (R202). -/
def execMovRmReg (d : Dir) (w : Width) (reg : RegField) (x : Rm) (s : State) : Host.Outcome State Fault Refusal :=
  emitRow (.movRmReg d w reg x) (rowMovRmReg d w reg x) s

/-- MOV, row MOV_RM_IMM: form GRP_RM_IMM_W (R203, R141). -/
def rowMovRmImm (x : Rm) (im : ImmW) (L : Latches) : Row :=
  { mnemonic := "MOV", ops := opsRmImmW x im L }

/-- MOV, row MOV_RM_IMM (R203). -/
def execMovRmImm (x : Rm) (im : ImmW) (s : State) : Host.Outcome State Fault Refusal :=
  emitRow (.movRmImm x im) (rowMovRmImm x im) s

/-- MOV, row MOV_REG_IMM: form REG_IMM (R204, R146). -/
def rowMovRegImm (ri : RegImm) (_L : Latches) : Row :=
  { mnemonic := "MOV", ops := opsRegImm ri }

/-- MOV, row MOV_REG_IMM (R204). -/
def execMovRegImm (ri : RegImm) (s : State) : Host.Outcome State Fault Refusal :=
  emitRow (.movRegImm ri) (rowMovRegImm ri) s

/-- MOV, row MOV_ACC_MEM: form ACC_MEM (R205, R145). -/
def rowMovAccMem (w : Width) (a : Word) (L : Latches) : Row :=
  { mnemonic := "MOV", ops := opsAccMem w a L }

/-- MOV, row MOV_ACC_MEM (R205). -/
def execMovAccMem (w : Width) (a : Word) (s : State) : Host.Outcome State Fault Refusal :=
  emitRow (.movAccMem w a) (rowMovAccMem w a) s

/-- MOV, row MOV_MEM_ACC: form ACC_MEM (R206, R145). -/
def rowMovMemAcc (w : Width) (a : Word) (L : Latches) : Row :=
  { mnemonic := "MOV", ops := opsMemAcc w a L }

/-- MOV, row MOV_MEM_ACC (R206). -/
def execMovMemAcc (w : Width) (a : Word) (s : State) : Host.Outcome State Fault Refusal :=
  emitRow (.movMemAcc w a) (rowMovMemAcc w a) s

/-- MOV, row MOV_RM_SREG: form RM_SREG (R207, R139). -/
def rowMovRmSreg (sr : Sreg) (x : Rm) (L : Latches) : Row :=
  { mnemonic := "MOV", ops := opsRmSreg sr x L }

/-- MOV, row MOV_RM_SREG (R207). -/
def execMovRmSreg (sr : Sreg) (x : Rm) (s : State) : Host.Outcome State Fault Refusal :=
  emitRow (.movRmSreg sr x) (rowMovRmSreg sr x) s

/-- MOV, row MOV_SREG_RM: form RM_SREG (R208, R139). -/
def rowMovSregRm (sr : Sreg) (x : Rm) (L : Latches) : Row :=
  { mnemonic := "MOV", ops := opsSregRm sr x L }

/-- MOV, row MOV_SREG_RM (R208). -/
def execMovSregRm (sr : Sreg) (x : Rm) (s : State) : Host.Outcome State Fault Refusal :=
  emitRow (.movSregRm sr x) (rowMovSregRm sr x) s

/-- PUSH, row PUSH_RM: form GRP_RM (R209, R142). -/
def rowPushRm (x : Rm) (L : Latches) : Row :=
  { mnemonic := "PUSH", ops := opsRm .word x L }

/-- PUSH, row PUSH_RM (R209). -/
def execPushRm (x : Rm) (s : State) : Host.Outcome State Fault Refusal :=
  emitRow (.pushRm x) (rowPushRm x) s

/-- PUSH, row PUSH_REG: form REG16 (R210, R147). -/
def rowPushReg (r : RegField) (_L : Latches) : Row :=
  { mnemonic := "PUSH", ops := opsReg16 r }

/-- PUSH, row PUSH_REG (R210). -/
def execPushReg (r : RegField) (s : State) : Host.Outcome State Fault Refusal :=
  emitRow (.pushReg r) (rowPushReg r) s

/-- PUSH, row PUSH_SREG: form SREG (R211, R148). -/
def rowPushSreg (sr : Sreg) (_L : Latches) : Row :=
  { mnemonic := "PUSH", ops := opsSreg sr }

/-- PUSH, row PUSH_SREG (R211). -/
def execPushSreg (sr : Sreg) (s : State) : Host.Outcome State Fault Refusal :=
  emitRow (.pushSreg sr) (rowPushSreg sr) s

/-- POP, row POP_RM: form GRP_RM (R212, R142). -/
def rowPopRm (x : Rm) (L : Latches) : Row :=
  { mnemonic := "POP", ops := opsRm .word x L }

/-- POP, row POP_RM (R212). -/
def execPopRm (x : Rm) (s : State) : Host.Outcome State Fault Refusal :=
  emitRow (.popRm x) (rowPopRm x) s

/-- POP, row POP_REG: form REG16 (R213, R147). -/
def rowPopReg (r : RegField) (_L : Latches) : Row :=
  { mnemonic := "POP", ops := opsReg16 r }

/-- POP, row POP_REG (R213). -/
def execPopReg (r : RegField) (s : State) : Host.Outcome State Fault Refusal :=
  emitRow (.popReg r) (rowPopReg r) s

/-- POP, row POP_SREG: form SREG (R214, R148). -/
def rowPopSreg (sr : Sreg) (_L : Latches) : Row :=
  { mnemonic := "POP", ops := opsSreg sr }

/-- POP, row POP_SREG (R214). -/
def execPopSreg (sr : Sreg) (s : State) : Host.Outcome State Fault Refusal :=
  emitRow (.popSreg sr) (rowPopSreg sr) s

/-- XCHG, row XCHG_RM_REG: form RM_REG (R215, R137). -/
def rowXchgRmReg (w : Width) (reg : RegField) (x : Rm) (L : Latches) : Row :=
  { mnemonic := "XCHG", ops := opsRmReg w reg x L }

/-- XCHG, row XCHG_RM_REG (R215). -/
def execXchgRmReg (w : Width) (reg : RegField) (x : Rm) (s : State) : Host.Outcome State Fault Refusal :=
  emitRow (.xchgRmReg w reg x) (rowXchgRmReg w reg x) s

/-- XCHG, row XCHG_AX_REG: form REG16 (R216, R147). -/
def rowXchgAxReg (r : RegField) (_L : Latches) : Row :=
  { mnemonic := "XCHG", ops := opsAxReg r }

/-- XCHG, row XCHG_AX_REG (R216). -/
def execXchgAxReg (r : RegField) (s : State) : Host.Outcome State Fault Refusal :=
  emitRow (.xchgAxReg r) (rowXchgAxReg r) s

/-- IN, row IN_PORT: form PORT8 (R217, R155). -/
def rowInPort (w : Width) (p : Byte) (_L : Latches) : Row :=
  { mnemonic := "IN", ops := opsInPort w p }

/-- IN, row IN_PORT (R217). -/
def execInPort (w : Width) (p : Byte) (s : State) : Host.Outcome State Fault Refusal :=
  emitRow (.inPort w p) (rowInPort w p) s

/-- IN, row IN_DX: form PORTDX (R218, R156). -/
def rowInDx (w : Width) (_L : Latches) : Row :=
  { mnemonic := "IN", ops := opsInDx w }

/-- IN, row IN_DX (R218). -/
def execInDx (w : Width) (s : State) : Host.Outcome State Fault Refusal :=
  emitRow (.inDx w) (rowInDx w) s

/-- OUT, row OUT_PORT: form PORT8 (R219, R155). -/
def rowOutPort (w : Width) (p : Byte) (_L : Latches) : Row :=
  { mnemonic := "OUT", ops := opsOutPort w p }

/-- OUT, row OUT_PORT (R219). -/
def execOutPort (w : Width) (p : Byte) (s : State) : Host.Outcome State Fault Refusal :=
  emitRow (.outPort w p) (rowOutPort w p) s

/-- OUT, row OUT_DX: form PORTDX (R220, R156). -/
def rowOutDx (w : Width) (_L : Latches) : Row :=
  { mnemonic := "OUT", ops := opsOutDx w }

/-- OUT, row OUT_DX (R220). -/
def execOutDx (w : Width) (s : State) : Host.Outcome State Fault Refusal :=
  emitRow (.outDx w) (rowOutDx w) s

/-- XLAT, row XLAT: form NONE (R221, R158). -/
def rowXlat (_L : Latches) : Row :=
  { mnemonic := "XLAT", ops := [] }

/-- XLAT, row XLAT (R221). -/
def execXlat (s : State) : Host.Outcome State Fault Refusal :=
  emitRow .xlat rowXlat s

/-- LEA, row LEA: form REG_MEM (R222, R138). -/
def rowLea (reg : RegField) (m : Mem) (L : Latches) : Row :=
  { mnemonic := "LEA", ops := opsRegMem reg m L }

/-- LEA, row LEA (R222). -/
def execLea (reg : RegField) (m : Mem) (s : State) : Host.Outcome State Fault Refusal :=
  emitRow (.lea reg m) (rowLea reg m) s

/-- LDS, row LDS: form REG_MEM (R223, R138). -/
def rowLds (reg : RegField) (m : Mem) (L : Latches) : Row :=
  { mnemonic := "LDS", ops := opsRegMem reg m L }

/-- LDS, row LDS (R223). -/
def execLds (reg : RegField) (m : Mem) (s : State) : Host.Outcome State Fault Refusal :=
  emitRow (.lds reg m) (rowLds reg m) s

/-- LES, row LES: form REG_MEM (R224, R138). -/
def rowLes (reg : RegField) (m : Mem) (L : Latches) : Row :=
  { mnemonic := "LES", ops := opsRegMem reg m L }

/-- LES, row LES (R224). -/
def execLes (reg : RegField) (m : Mem) (s : State) : Host.Outcome State Fault Refusal :=
  emitRow (.les reg m) (rowLes reg m) s

/-- LAHF, row LAHF: form NONE (R225, R158). -/
def rowLahf (_L : Latches) : Row :=
  { mnemonic := "LAHF", ops := [] }

/-- LAHF, row LAHF (R225). -/
def execLahf (s : State) : Host.Outcome State Fault Refusal :=
  emitRow .lahf rowLahf s

/-- SAHF, row SAHF: form NONE (R226, R158). -/
def rowSahf (_L : Latches) : Row :=
  { mnemonic := "SAHF", ops := [] }

/-- SAHF, row SAHF (R226). -/
def execSahf (s : State) : Host.Outcome State Fault Refusal :=
  emitRow .sahf rowSahf s

/-- PUSHF, row PUSHF: form NONE (R227, R158). -/
def rowPushf (_L : Latches) : Row :=
  { mnemonic := "PUSHF", ops := [] }

/-- PUSHF, row PUSHF (R227). -/
def execPushf (s : State) : Host.Outcome State Fault Refusal :=
  emitRow .pushf rowPushf s

/-- POPF, row POPF: form NONE (R228, R158). -/
def rowPopf (_L : Latches) : Row :=
  { mnemonic := "POPF", ops := [] }

/-- POPF, row POPF (R228). -/
def execPopf (s : State) : Host.Outcome State Fault Refusal :=
  emitRow .popf rowPopf s

end Sys2Proof.Machine
end

