-- ==== Sys2Proof/Machine/Logic.lean ====
section
/-! DEFINITION. The meanings of the logic, shift and rotate instructions (spec/43_logic.md, R282 to R301).

A row function gives what a form routine answers (R112): the mnemonic and the operand list. The meaning appends the rendered
line and moves the cursor past the instruction (`emitRow`). Nothing is executed (R4). -/

namespace Sys2Proof.Machine

/-- OR, row OR_RM_REG: form RM_REG_D (R282, R136). -/
def rowOrRmReg (d : Dir) (w : Width) (reg : RegField) (x : Rm) (L : Latches) : Row :=
  { mnemonic := "OR", ops := opsRmRegD d w reg x L }

/-- OR, row OR_RM_REG (R282). -/
def execOrRmReg (d : Dir) (w : Width) (reg : RegField) (x : Rm) (s : State) : Host.Outcome State Fault Refusal :=
  emitRow (.orRmReg d w reg x) (rowOrRmReg d w reg x) s

/-- OR, row OR_RM_IMM: form GRP_RM_IMM_SW (R283, R140). -/
def rowOrRmImm (x : Rm) (im : ImmSW) (L : Latches) : Row :=
  { mnemonic := "OR", ops := opsRmImmSW x im L }

/-- OR, row OR_RM_IMM (R283). -/
def execOrRmImm (x : Rm) (im : ImmSW) (s : State) : Host.Outcome State Fault Refusal :=
  emitRow (.orRmImm x im) (rowOrRmImm x im) s

/-- OR, row OR_ACC_IMM: form ACC_IMM (R284, R144). -/
def rowOrAccImm (im : ImmW) (_L : Latches) : Row :=
  { mnemonic := "OR", ops := opsAccImm im }

/-- OR, row OR_ACC_IMM (R284). -/
def execOrAccImm (im : ImmW) (s : State) : Host.Outcome State Fault Refusal :=
  emitRow (.orAccImm im) (rowOrAccImm im) s

/-- AND, row AND_RM_REG: form RM_REG_D (R285, R136). -/
def rowAndRmReg (d : Dir) (w : Width) (reg : RegField) (x : Rm) (L : Latches) : Row :=
  { mnemonic := "AND", ops := opsRmRegD d w reg x L }

/-- AND, row AND_RM_REG (R285). -/
def execAndRmReg (d : Dir) (w : Width) (reg : RegField) (x : Rm) (s : State) : Host.Outcome State Fault Refusal :=
  emitRow (.andRmReg d w reg x) (rowAndRmReg d w reg x) s

/-- AND, row AND_RM_IMM: form GRP_RM_IMM_SW (R286, R140). -/
def rowAndRmImm (x : Rm) (im : ImmSW) (L : Latches) : Row :=
  { mnemonic := "AND", ops := opsRmImmSW x im L }

/-- AND, row AND_RM_IMM (R286). -/
def execAndRmImm (x : Rm) (im : ImmSW) (s : State) : Host.Outcome State Fault Refusal :=
  emitRow (.andRmImm x im) (rowAndRmImm x im) s

/-- AND, row AND_ACC_IMM: form ACC_IMM (R287, R144). -/
def rowAndAccImm (im : ImmW) (_L : Latches) : Row :=
  { mnemonic := "AND", ops := opsAccImm im }

/-- AND, row AND_ACC_IMM (R287). -/
def execAndAccImm (im : ImmW) (s : State) : Host.Outcome State Fault Refusal :=
  emitRow (.andAccImm im) (rowAndAccImm im) s

/-- XOR, row XOR_RM_REG: form RM_REG_D (R288, R136). -/
def rowXorRmReg (d : Dir) (w : Width) (reg : RegField) (x : Rm) (L : Latches) : Row :=
  { mnemonic := "XOR", ops := opsRmRegD d w reg x L }

/-- XOR, row XOR_RM_REG (R288). -/
def execXorRmReg (d : Dir) (w : Width) (reg : RegField) (x : Rm) (s : State) : Host.Outcome State Fault Refusal :=
  emitRow (.xorRmReg d w reg x) (rowXorRmReg d w reg x) s

/-- XOR, row XOR_RM_IMM: form GRP_RM_IMM_SW (R289, R140). -/
def rowXorRmImm (x : Rm) (im : ImmSW) (L : Latches) : Row :=
  { mnemonic := "XOR", ops := opsRmImmSW x im L }

/-- XOR, row XOR_RM_IMM (R289). -/
def execXorRmImm (x : Rm) (im : ImmSW) (s : State) : Host.Outcome State Fault Refusal :=
  emitRow (.xorRmImm x im) (rowXorRmImm x im) s

/-- XOR, row XOR_ACC_IMM: form ACC_IMM (R290, R144). -/
def rowXorAccImm (im : ImmW) (_L : Latches) : Row :=
  { mnemonic := "XOR", ops := opsAccImm im }

/-- XOR, row XOR_ACC_IMM (R290). -/
def execXorAccImm (im : ImmW) (s : State) : Host.Outcome State Fault Refusal :=
  emitRow (.xorAccImm im) (rowXorAccImm im) s

/-- NOT, row NOT: form GRP_RM (R291, R142). -/
def rowNot (w : Width) (x : Rm) (L : Latches) : Row :=
  { mnemonic := "NOT", ops := opsRm w x L }

/-- NOT, row NOT (R291). -/
def execNot (w : Width) (x : Rm) (s : State) : Host.Outcome State Fault Refusal :=
  emitRow (.not w x) (rowNot w x) s

/-- ROL, row ROL: form GRP_SHIFT (R292, R143). -/
def rowRol (v : ShiftCount) (w : Width) (x : Rm) (L : Latches) : Row :=
  { mnemonic := "ROL", ops := opsShift v w x L }

/-- ROL, row ROL (R292). -/
def execRol (v : ShiftCount) (w : Width) (x : Rm) (s : State) : Host.Outcome State Fault Refusal :=
  emitRow (.rol v w x) (rowRol v w x) s

/-- ROR, row ROR: form GRP_SHIFT (R293, R143). -/
def rowRor (v : ShiftCount) (w : Width) (x : Rm) (L : Latches) : Row :=
  { mnemonic := "ROR", ops := opsShift v w x L }

/-- ROR, row ROR (R293). -/
def execRor (v : ShiftCount) (w : Width) (x : Rm) (s : State) : Host.Outcome State Fault Refusal :=
  emitRow (.ror v w x) (rowRor v w x) s

/-- RCL, row RCL: form GRP_SHIFT (R294, R143). -/
def rowRcl (v : ShiftCount) (w : Width) (x : Rm) (L : Latches) : Row :=
  { mnemonic := "RCL", ops := opsShift v w x L }

/-- RCL, row RCL (R294). -/
def execRcl (v : ShiftCount) (w : Width) (x : Rm) (s : State) : Host.Outcome State Fault Refusal :=
  emitRow (.rcl v w x) (rowRcl v w x) s

/-- RCR, row RCR: form GRP_SHIFT (R295, R143). -/
def rowRcr (v : ShiftCount) (w : Width) (x : Rm) (L : Latches) : Row :=
  { mnemonic := "RCR", ops := opsShift v w x L }

/-- RCR, row RCR (R295). -/
def execRcr (v : ShiftCount) (w : Width) (x : Rm) (s : State) : Host.Outcome State Fault Refusal :=
  emitRow (.rcr v w x) (rowRcr v w x) s

/-- SHL, row SHL: form GRP_SHIFT (R296, R143). -/
def rowShl (v : ShiftCount) (w : Width) (x : Rm) (L : Latches) : Row :=
  { mnemonic := "SHL", ops := opsShift v w x L }

/-- SHL, row SHL (R296). -/
def execShl (v : ShiftCount) (w : Width) (x : Rm) (s : State) : Host.Outcome State Fault Refusal :=
  emitRow (.shl v w x) (rowShl v w x) s

/-- SHR, row SHR: form GRP_SHIFT (R297, R143). -/
def rowShr (v : ShiftCount) (w : Width) (x : Rm) (L : Latches) : Row :=
  { mnemonic := "SHR", ops := opsShift v w x L }

/-- SHR, row SHR (R297). -/
def execShr (v : ShiftCount) (w : Width) (x : Rm) (s : State) : Host.Outcome State Fault Refusal :=
  emitRow (.shr v w x) (rowShr v w x) s

/-- SAR, row SAR: form GRP_SHIFT (R298, R143). -/
def rowSar (v : ShiftCount) (w : Width) (x : Rm) (L : Latches) : Row :=
  { mnemonic := "SAR", ops := opsShift v w x L }

/-- SAR, row SAR (R298). -/
def execSar (v : ShiftCount) (w : Width) (x : Rm) (s : State) : Host.Outcome State Fault Refusal :=
  emitRow (.sar v w x) (rowSar v w x) s

/-- TEST, row TEST_RM_REG: form RM_REG (R299, R137). -/
def rowTestRmReg (w : Width) (reg : RegField) (x : Rm) (L : Latches) : Row :=
  { mnemonic := "TEST", ops := opsRmReg w reg x L }

/-- TEST, row TEST_RM_REG (R299). -/
def execTestRmReg (w : Width) (reg : RegField) (x : Rm) (s : State) : Host.Outcome State Fault Refusal :=
  emitRow (.testRmReg w reg x) (rowTestRmReg w reg x) s

/-- TEST, row TEST_RM_IMM: form GRP_RM_IMM_W (R300, R141). -/
def rowTestRmImm (x : Rm) (im : ImmW) (L : Latches) : Row :=
  { mnemonic := "TEST", ops := opsRmImmW x im L }

/-- TEST, row TEST_RM_IMM (R300). -/
def execTestRmImm (x : Rm) (im : ImmW) (s : State) : Host.Outcome State Fault Refusal :=
  emitRow (.testRmImm x im) (rowTestRmImm x im) s

/-- TEST, row TEST_ACC_IMM: form ACC_IMM (R301, R144). -/
def rowTestAccImm (im : ImmW) (_L : Latches) : Row :=
  { mnemonic := "TEST", ops := opsAccImm im }

/-- TEST, row TEST_ACC_IMM (R301). -/
def execTestAccImm (im : ImmW) (s : State) : Host.Outcome State Fault Refusal :=
  emitRow (.testAccImm im) (rowTestAccImm im) s

end Sys2Proof.Machine
end

