-- ==== Sys2Proof/Machine/ProcessorControl.lean ====
section
/-! DEFINITION. The meanings of the processor-control instructions (spec/46_processor_control.md, R362 to R370, R373).

A row function gives what a form routine answers (R112): the mnemonic and the operand list. The meaning appends the rendered
line and moves the cursor past the instruction (`emitRow`). Nothing is executed (R4). -/

namespace Sys2Proof.Machine

/-- CLC, row CLC: form NONE (R362, R158). -/
def rowClc (_L : Latches) : Row :=
  { mnemonic := "CLC", ops := [] }

/-- CLC, row CLC (R362). -/
def execClc (s : State) : Host.Outcome State Fault Refusal :=
  emitRow .clc rowClc s

/-- CMC, row CMC: form NONE (R363, R158). -/
def rowCmc (_L : Latches) : Row :=
  { mnemonic := "CMC", ops := [] }

/-- CMC, row CMC (R363). -/
def execCmc (s : State) : Host.Outcome State Fault Refusal :=
  emitRow .cmc rowCmc s

/-- STC, row STC: form NONE (R364, R158). -/
def rowStc (_L : Latches) : Row :=
  { mnemonic := "STC", ops := [] }

/-- STC, row STC (R364). -/
def execStc (s : State) : Host.Outcome State Fault Refusal :=
  emitRow .stc rowStc s

/-- CLD, row CLD: form NONE (R365, R158). -/
def rowCld (_L : Latches) : Row :=
  { mnemonic := "CLD", ops := [] }

/-- CLD, row CLD (R365). -/
def execCld (s : State) : Host.Outcome State Fault Refusal :=
  emitRow .cld rowCld s

/-- STD, row STD: form NONE (R366, R158). -/
def rowStd (_L : Latches) : Row :=
  { mnemonic := "STD", ops := [] }

/-- STD, row STD (R366). -/
def execStd (s : State) : Host.Outcome State Fault Refusal :=
  emitRow .std rowStd s

/-- CLI, row CLI: form NONE (R367, R158). -/
def rowCli (_L : Latches) : Row :=
  { mnemonic := "CLI", ops := [] }

/-- CLI, row CLI (R367). -/
def execCli (s : State) : Host.Outcome State Fault Refusal :=
  emitRow .cli rowCli s

/-- STI, row STI: form NONE (R368, R158). -/
def rowSti (_L : Latches) : Row :=
  { mnemonic := "STI", ops := [] }

/-- STI, row STI (R368). -/
def execSti (s : State) : Host.Outcome State Fault Refusal :=
  emitRow .sti rowSti s

/-- HLT, row HLT: form NONE (R369, R158). -/
def rowHlt (_L : Latches) : Row :=
  { mnemonic := "HLT", ops := [] }

/-- HLT, row HLT (R369). -/
def execHlt (s : State) : Host.Outcome State Fault Refusal :=
  emitRow .hlt rowHlt s

/-- WAIT, row WAIT: form NONE (R370, R158). -/
def rowWait (_L : Latches) : Row :=
  { mnemonic := "WAIT", ops := [] }

/-- WAIT, row WAIT (R370). -/
def execWait (s : State) : Host.Outcome State Fault Refusal :=
  emitRow .wait rowWait s

/-- NOP, row NOP: form NONE (R373, R158). -/
def rowNop (_L : Latches) : Row :=
  { mnemonic := "NOP", ops := [] }

/-- NOP, row NOP (R373). -/
def execNop (s : State) : Host.Outcome State Fault Refusal :=
  emitRow .nop rowNop s

end Sys2Proof.Machine
end

