-- ==== Sys2Proof/Machine/StringOps.lean ====
section
/-! DEFINITION. The meanings of the string instructions (spec/44_string.md, R312 to R316).

A row function gives what a form routine answers (R112): the mnemonic and the operand list. The meaning appends the rendered
line and moves the cursor past the instruction (`emitRow`). Nothing is executed (R4). -/

namespace Sys2Proof.Machine

/-- MOVS, row MOVS: form STR (R312, R157). -/
def rowMovs (w : Width) (_L : Latches) : Row :=
  { mnemonic := "MOVS" ++ strSuffix w, ops := [] }

/-- MOVS, row MOVS (R312). -/
def execMovs (w : Width) (s : State) : Host.Outcome State Fault Refusal :=
  emitRow (.movs w) (rowMovs w) s

/-- CMPS, row CMPS: form STR (R313, R157). -/
def rowCmps (w : Width) (_L : Latches) : Row :=
  { mnemonic := "CMPS" ++ strSuffix w, ops := [] }

/-- CMPS, row CMPS (R313). -/
def execCmps (w : Width) (s : State) : Host.Outcome State Fault Refusal :=
  emitRow (.cmps w) (rowCmps w) s

/-- SCAS, row SCAS: form STR (R314, R157). -/
def rowScas (w : Width) (_L : Latches) : Row :=
  { mnemonic := "SCAS" ++ strSuffix w, ops := [] }

/-- SCAS, row SCAS (R314). -/
def execScas (w : Width) (s : State) : Host.Outcome State Fault Refusal :=
  emitRow (.scas w) (rowScas w) s

/-- LODS, row LODS: form STR (R315, R157). -/
def rowLods (w : Width) (_L : Latches) : Row :=
  { mnemonic := "LODS" ++ strSuffix w, ops := [] }

/-- LODS, row LODS (R315). -/
def execLods (w : Width) (s : State) : Host.Outcome State Fault Refusal :=
  emitRow (.lods w) (rowLods w) s

/-- STOS, row STOS: form STR (R316, R157). -/
def rowStos (w : Width) (_L : Latches) : Row :=
  { mnemonic := "STOS" ++ strSuffix w, ops := [] }

/-- STOS, row STOS (R316). -/
def execStos (w : Width) (s : State) : Host.Outcome State Fault Refusal :=
  emitRow (.stos w) (rowStos w) s

end Sys2Proof.Machine
end

