-- ==== Sys2Proof/Machine/Prefixes.lean ====
section
/-! DEFINITION. The row of any instruction, and the meanings of the four prefix rows (R371, R372, R317, R318).

A prefix and the instruction it modifies are one instruction and give one line (R29, R115). A prefixed instruction has the row
of the instruction that follows; the prefixes act through the latches (R114 to R116), which `emitRow` takes from the whole
instruction. -/

namespace Sys2Proof.Machine

/-- The final row and the operand list of an instruction (R112, R120), as a function of the latches. -/
def rowOf : Instr → Latches → Row
  | .movRmReg d w reg x => rowMovRmReg d w reg x
  | .movRmImm x im => rowMovRmImm x im
  | .movRegImm ri => rowMovRegImm ri
  | .movAccMem w a => rowMovAccMem w a
  | .movMemAcc w a => rowMovMemAcc w a
  | .movRmSreg sr x => rowMovRmSreg sr x
  | .movSregRm sr x => rowMovSregRm sr x
  | .pushRm x => rowPushRm x
  | .pushReg r => rowPushReg r
  | .pushSreg sr => rowPushSreg sr
  | .popRm x => rowPopRm x
  | .popReg r => rowPopReg r
  | .popSreg sr => rowPopSreg sr
  | .xchgRmReg w reg x => rowXchgRmReg w reg x
  | .xchgAxReg r => rowXchgAxReg r
  | .inPort w p => rowInPort w p
  | .inDx w => rowInDx w
  | .outPort w p => rowOutPort w p
  | .outDx w => rowOutDx w
  | .xlat => rowXlat
  | .lea reg m => rowLea reg m
  | .lds reg m => rowLds reg m
  | .les reg m => rowLes reg m
  | .lahf => rowLahf
  | .sahf => rowSahf
  | .pushf => rowPushf
  | .popf => rowPopf
  | .addRmReg d w reg x => rowAddRmReg d w reg x
  | .addRmImm x im => rowAddRmImm x im
  | .addAccImm im => rowAddAccImm im
  | .adcRmReg d w reg x => rowAdcRmReg d w reg x
  | .adcRmImm x im => rowAdcRmImm x im
  | .adcAccImm im => rowAdcAccImm im
  | .sbbRmReg d w reg x => rowSbbRmReg d w reg x
  | .sbbRmImm x im => rowSbbRmImm x im
  | .sbbAccImm im => rowSbbAccImm im
  | .subRmReg d w reg x => rowSubRmReg d w reg x
  | .subRmImm x im => rowSubRmImm x im
  | .subAccImm im => rowSubAccImm im
  | .cmpRmReg d w reg x => rowCmpRmReg d w reg x
  | .cmpRmImm x im => rowCmpRmImm x im
  | .cmpAccImm im => rowCmpAccImm im
  | .incRm w x => rowIncRm w x
  | .incReg r => rowIncReg r
  | .decRm w x => rowDecRm w x
  | .decReg r => rowDecReg r
  | .aaa => rowAaa
  | .daa => rowDaa
  | .aas => rowAas
  | .das => rowDas
  | .neg w x => rowNeg w x
  | .mul w x => rowMul w x
  | .imul w x => rowImul w x
  | .div w x => rowDiv w x
  | .idiv w x => rowIdiv w x
  | .aam => rowAam
  | .aad => rowAad
  | .cbw => rowCbw
  | .cwd => rowCwd
  | .orRmReg d w reg x => rowOrRmReg d w reg x
  | .orRmImm x im => rowOrRmImm x im
  | .orAccImm im => rowOrAccImm im
  | .andRmReg d w reg x => rowAndRmReg d w reg x
  | .andRmImm x im => rowAndRmImm x im
  | .andAccImm im => rowAndAccImm im
  | .xorRmReg d w reg x => rowXorRmReg d w reg x
  | .xorRmImm x im => rowXorRmImm x im
  | .xorAccImm im => rowXorAccImm im
  | .not w x => rowNot w x
  | .rol v w x => rowRol v w x
  | .ror v w x => rowRor v w x
  | .rcl v w x => rowRcl v w x
  | .rcr v w x => rowRcr v w x
  | .shl v w x => rowShl v w x
  | .shr v w x => rowShr v w x
  | .sar v w x => rowSar v w x
  | .testRmReg w reg x => rowTestRmReg w reg x
  | .testRmImm x im => rowTestRmImm x im
  | .testAccImm im => rowTestAccImm im
  | .movs w => rowMovs w
  | .cmps w => rowCmps w
  | .scas w => rowScas w
  | .lods w => rowLods w
  | .stos w => rowStos w
  | .rep body => rowOf body
  | .repne body => rowOf body
  | .callNear disp => rowCallNear disp
  | .callRm x => rowCallRm x
  | .callFar off sgm => rowCallFar off sgm
  | .callFarMem m => rowCallFarMem m
  | .jmpNear disp => rowJmpNear disp
  | .jmpShort disp => rowJmpShort disp
  | .jmpRm x => rowJmpRm x
  | .jmpFar off sgm => rowJmpFar off sgm
  | .jmpFarMem m => rowJmpFarMem m
  | .ret => rowRet
  | .retImm n => rowRetImm n
  | .retf => rowRetf
  | .retfImm n => rowRetfImm n
  | .jo disp => rowJo disp
  | .jno disp => rowJno disp
  | .jb disp => rowJb disp
  | .jnb disp => rowJnb disp
  | .jz disp => rowJz disp
  | .jnz disp => rowJnz disp
  | .jbe disp => rowJbe disp
  | .ja disp => rowJa disp
  | .js disp => rowJs disp
  | .jns disp => rowJns disp
  | .jp disp => rowJp disp
  | .jnp disp => rowJnp disp
  | .jl disp => rowJl disp
  | .jnl disp => rowJnl disp
  | .jle disp => rowJle disp
  | .jg disp => rowJg disp
  | .loop disp => rowLoop disp
  | .loopz disp => rowLoopz disp
  | .loopnz disp => rowLoopnz disp
  | .jcxz disp => rowJcxz disp
  | .int n => rowInt n
  | .int3 => rowInt3
  | .into => rowInto
  | .iret => rowIret
  | .clc => rowClc
  | .cmc => rowCmc
  | .stc => rowStc
  | .cld => rowCld
  | .std => rowStd
  | .cli => rowCli
  | .sti => rowSti
  | .hlt => rowHlt
  | .wait => rowWait
  | .lock body => rowOf body
  | .seg _ body => rowOf body
  | .nop => rowNop

/-- REP, row REP: the line begins with `"REP "`, after any `"LOCK "` (R317, R116). -/
def execRep (body : Instr) (s : State) : Host.Outcome State Fault Refusal :=
  emitRow (.rep body) (rowOf body) s

/-- REPNE, row REPNE: the line begins with `"REPNE "`, after any `"LOCK "` (R318, R116). -/
def execRepne (body : Instr) (s : State) : Host.Outcome State Fault Refusal :=
  emitRow (.repne body) (rowOf body) s

/-- LOCK, row LOCK: the line begins with `"LOCK "` (R371, R114). -/
def execLock (body : Instr) (s : State) : Host.Outcome State Fault Refusal :=
  emitRow (.lock body) (rowOf body) s

/-- SEG, row SEG: the override stands inside the memory operand (R372, R115, R161). -/
def execSeg (sr : Sreg) (body : Instr) (s : State) : Host.Outcome State Fault Refusal :=
  emitRow (.seg sr body) (rowOf body) s

end Sys2Proof.Machine
end

