-- ==== Sys2Proof/Machine/Dispatch.lean ====
section
/-! DEFINITION. The meaning of each instruction, by constructor. -/

namespace Sys2Proof.Machine

/-- What an instruction does to the state: one arm per constructor of `Instr`. -/
def exec (i : Instr) (s : State) : Host.Outcome State Fault Refusal :=
  match i with
  -- spec/41_data_transfer.md
  | .movRmReg d w reg x => Sys2Proof.Machine.execMovRmReg d w reg x s
  | .movRmImm x im => Sys2Proof.Machine.execMovRmImm x im s
  | .movRegImm ri => Sys2Proof.Machine.execMovRegImm ri s
  | .movAccMem w a => Sys2Proof.Machine.execMovAccMem w a s
  | .movMemAcc w a => Sys2Proof.Machine.execMovMemAcc w a s
  | .movRmSreg sr x => Sys2Proof.Machine.execMovRmSreg sr x s
  | .movSregRm sr x => Sys2Proof.Machine.execMovSregRm sr x s
  | .pushRm x => Sys2Proof.Machine.execPushRm x s
  | .pushReg r => Sys2Proof.Machine.execPushReg r s
  | .pushSreg sr => Sys2Proof.Machine.execPushSreg sr s
  | .popRm x => Sys2Proof.Machine.execPopRm x s
  | .popReg r => Sys2Proof.Machine.execPopReg r s
  | .popSreg sr => Sys2Proof.Machine.execPopSreg sr s
  | .xchgRmReg w reg x => Sys2Proof.Machine.execXchgRmReg w reg x s
  | .xchgAxReg r => Sys2Proof.Machine.execXchgAxReg r s
  | .inPort w p => Sys2Proof.Machine.execInPort w p s
  | .inDx w => Sys2Proof.Machine.execInDx w s
  | .outPort w p => Sys2Proof.Machine.execOutPort w p s
  | .outDx w => Sys2Proof.Machine.execOutDx w s
  | .xlat => Sys2Proof.Machine.execXlat s
  | .lea reg m => Sys2Proof.Machine.execLea reg m s
  | .lds reg m => Sys2Proof.Machine.execLds reg m s
  | .les reg m => Sys2Proof.Machine.execLes reg m s
  | .lahf => Sys2Proof.Machine.execLahf s
  | .sahf => Sys2Proof.Machine.execSahf s
  | .pushf => Sys2Proof.Machine.execPushf s
  | .popf => Sys2Proof.Machine.execPopf s
  -- spec/42_arithmetic.md
  | .addRmReg d w reg x => Sys2Proof.Machine.execAddRmReg d w reg x s
  | .addRmImm x im => Sys2Proof.Machine.execAddRmImm x im s
  | .addAccImm im => Sys2Proof.Machine.execAddAccImm im s
  | .adcRmReg d w reg x => Sys2Proof.Machine.execAdcRmReg d w reg x s
  | .adcRmImm x im => Sys2Proof.Machine.execAdcRmImm x im s
  | .adcAccImm im => Sys2Proof.Machine.execAdcAccImm im s
  | .sbbRmReg d w reg x => Sys2Proof.Machine.execSbbRmReg d w reg x s
  | .sbbRmImm x im => Sys2Proof.Machine.execSbbRmImm x im s
  | .sbbAccImm im => Sys2Proof.Machine.execSbbAccImm im s
  | .subRmReg d w reg x => Sys2Proof.Machine.execSubRmReg d w reg x s
  | .subRmImm x im => Sys2Proof.Machine.execSubRmImm x im s
  | .subAccImm im => Sys2Proof.Machine.execSubAccImm im s
  | .cmpRmReg d w reg x => Sys2Proof.Machine.execCmpRmReg d w reg x s
  | .cmpRmImm x im => Sys2Proof.Machine.execCmpRmImm x im s
  | .cmpAccImm im => Sys2Proof.Machine.execCmpAccImm im s
  | .incRm w x => Sys2Proof.Machine.execIncRm w x s
  | .incReg r => Sys2Proof.Machine.execIncReg r s
  | .decRm w x => Sys2Proof.Machine.execDecRm w x s
  | .decReg r => Sys2Proof.Machine.execDecReg r s
  | .aaa => Sys2Proof.Machine.execAaa s
  | .daa => Sys2Proof.Machine.execDaa s
  | .aas => Sys2Proof.Machine.execAas s
  | .das => Sys2Proof.Machine.execDas s
  | .neg w x => Sys2Proof.Machine.execNeg w x s
  | .mul w x => Sys2Proof.Machine.execMul w x s
  | .imul w x => Sys2Proof.Machine.execImul w x s
  | .div w x => Sys2Proof.Machine.execDiv w x s
  | .idiv w x => Sys2Proof.Machine.execIdiv w x s
  | .aam => Sys2Proof.Machine.execAam s
  | .aad => Sys2Proof.Machine.execAad s
  | .cbw => Sys2Proof.Machine.execCbw s
  | .cwd => Sys2Proof.Machine.execCwd s
  -- spec/43_logic.md
  | .orRmReg d w reg x => Sys2Proof.Machine.execOrRmReg d w reg x s
  | .orRmImm x im => Sys2Proof.Machine.execOrRmImm x im s
  | .orAccImm im => Sys2Proof.Machine.execOrAccImm im s
  | .andRmReg d w reg x => Sys2Proof.Machine.execAndRmReg d w reg x s
  | .andRmImm x im => Sys2Proof.Machine.execAndRmImm x im s
  | .andAccImm im => Sys2Proof.Machine.execAndAccImm im s
  | .xorRmReg d w reg x => Sys2Proof.Machine.execXorRmReg d w reg x s
  | .xorRmImm x im => Sys2Proof.Machine.execXorRmImm x im s
  | .xorAccImm im => Sys2Proof.Machine.execXorAccImm im s
  | .not w x => Sys2Proof.Machine.execNot w x s
  | .rol v w x => Sys2Proof.Machine.execRol v w x s
  | .ror v w x => Sys2Proof.Machine.execRor v w x s
  | .rcl v w x => Sys2Proof.Machine.execRcl v w x s
  | .rcr v w x => Sys2Proof.Machine.execRcr v w x s
  | .shl v w x => Sys2Proof.Machine.execShl v w x s
  | .shr v w x => Sys2Proof.Machine.execShr v w x s
  | .sar v w x => Sys2Proof.Machine.execSar v w x s
  | .testRmReg w reg x => Sys2Proof.Machine.execTestRmReg w reg x s
  | .testRmImm x im => Sys2Proof.Machine.execTestRmImm x im s
  | .testAccImm im => Sys2Proof.Machine.execTestAccImm im s
  -- spec/44_string.md
  | .movs w => Sys2Proof.Machine.execMovs w s
  | .cmps w => Sys2Proof.Machine.execCmps w s
  | .scas w => Sys2Proof.Machine.execScas w s
  | .lods w => Sys2Proof.Machine.execLods w s
  | .stos w => Sys2Proof.Machine.execStos w s
  | .rep body => Sys2Proof.Machine.execRep body s
  | .repne body => Sys2Proof.Machine.execRepne body s
  -- spec/45_control_transfer.md
  | .callNear disp => Sys2Proof.Machine.execCallNear disp s
  | .callRm x => Sys2Proof.Machine.execCallRm x s
  | .callFar off sgm => Sys2Proof.Machine.execCallFar off sgm s
  | .callFarMem m => Sys2Proof.Machine.execCallFarMem m s
  | .jmpNear disp => Sys2Proof.Machine.execJmpNear disp s
  | .jmpShort disp => Sys2Proof.Machine.execJmpShort disp s
  | .jmpRm x => Sys2Proof.Machine.execJmpRm x s
  | .jmpFar off sgm => Sys2Proof.Machine.execJmpFar off sgm s
  | .jmpFarMem m => Sys2Proof.Machine.execJmpFarMem m s
  | .ret => Sys2Proof.Machine.execRet s
  | .retImm n => Sys2Proof.Machine.execRetImm n s
  | .retf => Sys2Proof.Machine.execRetf s
  | .retfImm n => Sys2Proof.Machine.execRetfImm n s
  | .jo disp => Sys2Proof.Machine.execJo disp s
  | .jno disp => Sys2Proof.Machine.execJno disp s
  | .jb disp => Sys2Proof.Machine.execJb disp s
  | .jnb disp => Sys2Proof.Machine.execJnb disp s
  | .jz disp => Sys2Proof.Machine.execJz disp s
  | .jnz disp => Sys2Proof.Machine.execJnz disp s
  | .jbe disp => Sys2Proof.Machine.execJbe disp s
  | .ja disp => Sys2Proof.Machine.execJa disp s
  | .js disp => Sys2Proof.Machine.execJs disp s
  | .jns disp => Sys2Proof.Machine.execJns disp s
  | .jp disp => Sys2Proof.Machine.execJp disp s
  | .jnp disp => Sys2Proof.Machine.execJnp disp s
  | .jl disp => Sys2Proof.Machine.execJl disp s
  | .jnl disp => Sys2Proof.Machine.execJnl disp s
  | .jle disp => Sys2Proof.Machine.execJle disp s
  | .jg disp => Sys2Proof.Machine.execJg disp s
  | .loop disp => Sys2Proof.Machine.execLoop disp s
  | .loopz disp => Sys2Proof.Machine.execLoopz disp s
  | .loopnz disp => Sys2Proof.Machine.execLoopnz disp s
  | .jcxz disp => Sys2Proof.Machine.execJcxz disp s
  | .int n => Sys2Proof.Machine.execInt n s
  | .int3 => Sys2Proof.Machine.execInt3 s
  | .into => Sys2Proof.Machine.execInto s
  | .iret => Sys2Proof.Machine.execIret s
  -- spec/46_processor_control.md
  | .clc => Sys2Proof.Machine.execClc s
  | .cmc => Sys2Proof.Machine.execCmc s
  | .stc => Sys2Proof.Machine.execStc s
  | .cld => Sys2Proof.Machine.execCld s
  | .std => Sys2Proof.Machine.execStd s
  | .cli => Sys2Proof.Machine.execCli s
  | .sti => Sys2Proof.Machine.execSti s
  | .hlt => Sys2Proof.Machine.execHlt s
  | .wait => Sys2Proof.Machine.execWait s
  | .lock body => Sys2Proof.Machine.execLock body s
  | .seg sr body => Sys2Proof.Machine.execSeg sr body s
  | .nop => Sys2Proof.Machine.execNop s

end Sys2Proof.Machine
end

