-- ==== Sys2Proof/Machine/Step.lean ====
section
/-! DEFINITION. The step (R111), and placing a word of the opcode table where the next step fetches. -/

namespace Sys2Proof.Machine

/-- `Step(S)` (R111), the block's only transition: the end of the buffer, one instruction decoded, or a decode error. In
Done and Error no step is enabled (R25, R36, R388; log 4). -/
def step (s : State) : Host.Outcome State Fault Refusal :=
  match s.status with
  | .running =>
    if s.cursor = s.len then .next s.finish
    else match decodeOne s.buf s.cursor with
      | .ok (i, _) => exec i s
      | .error e   => .next (s.takeError e)
  | .done | .error => .fault .stepNotEnabled

/-- The state with a table word's bytes at the cursor (log 3, log 8, log 14): it stands for the host's supplying the image
(R401, R405). A buffer that ends before the cursor is filled up with zeros. The status is Running with no error, as a step
needs. -/
def State.withFetchWord (s : State) (nbits w : Nat) : State :=
  { s with
    buf := s.buf.take s.cursor ++ List.replicate (s.cursor - s.buf.length) 0 ++ tableBytes nbits w ++
      s.buf.drop (s.cursor + Config.maxInstrBytes)
    status := .running
    error := none }

end Sys2Proof.Machine
end

