-- ==== Sys2Proof/Safety.lean ====
section
/-! DEFINITION. What holds of every state a run passes through: the invariant of the state vector (R23 to R27, R385). -/

namespace Sys2Proof

open Machine

/-- Which fields a record of each kind fills (R385). -/
def errorFieldsOk (e : ErrorRecord) : Bool :=
  match e.kind with
  | .unexpectedEndOfStream =>
    e.byte.isNone && e.field.isNone && (decide (e.missing = some 1) || decide (e.missing = some 2))
  | .unknownOpcode => e.byte.isSome && e.field.isNone && e.missing.isNone
  | .invalidField  => e.byte.isSome && e.field.isSome && e.missing.isNone

/-- Where a record points (R26, R382 to R385, R387): it begins at the cursor; a recorded byte is the buffer's byte at
`offset`; a failed read begins at the end of the buffer, or, if it is a word's, one byte before it. -/
def errorPlaceOk (s : State) (e : ErrorRecord) : Prop :=
  e.instrStart = s.cursor ∧ e.instrStart ≤ e.offset ∧
  (∀ b, e.byte = some b → memRead s e.offset = some b) ∧
  (∀ n, e.missing = some n →
    (e.offset = s.len ∧ (n = 1 ∨ n = 2)) ∨ (e.offset + 1 = s.len ∧ n = 1))

/-- The invariant of the state vector. -/
structure Inv (s : State) : Prop where
  /-- `0 <= cursor <= Len` (R24) -/
  cursor_le : s.cursor ≤ s.len
  /-- `error` is not none exactly when `status = Error` (R26) -/
  error_iff : s.error.isSome = true ↔ s.status = .error
  /-- Done means that the whole buffer has been decoded (R25) -/
  done_end : s.status = .done → s.cursor = s.len
  /-- the record is filled as its kind says (R385) -/
  error_fields : ∀ e, s.error = some e → errorFieldsOk e = true
  /-- the record points where it should (R26, R387) -/
  error_place : ∀ e, s.error = some e → errorPlaceOk s e
  /-- the listing begins with the two header lines (R27, R167) -/
  headers : s.listing.take 2 = [headerLine s.sourceName, directiveLine]
  /-- one line per instruction, each at least one byte long (R27, R171) -/
  lines_le : s.listing.length ≤ s.cursor + 2
  /-- the source's name is ASCII text without line breaks (R9, D5) -/
  name_plain : isPlain s.sourceName = true
  /-- each line is an ASCII string with no line terminator (R27) -/
  lines_plain : ∀ t ∈ s.listing, isPlain t = true

/-! ## Runs -/

/-- The state after a step, or the same state where no step is enabled (R25). -/
def afterStep (s : State) : State :=
  match step s with
  | .next t    => t
  | .fault _   => s
  | .refused _ => s

/-- The state after `k` steps. -/
def afterSteps : Nat → State → State
  | 0, s     => s
  | k + 1, s => afterSteps k (afterStep s)

/-- The bytes of a program: its instructions' encodings one after another. -/
def programBytes (is : List Instr) : List Byte := is.flatMap encode

/-- The lines of a program whose first instruction stands at the cursor: each instruction's line is the one its own step
appends, in source order (R27, R55). -/
def programLines (s : State) : List Instr → List String
  | []      => []
  | i :: is =>
    render (latchesOf i s) (rowOf i (latchesOf i s)) :: programLines { s with cursor := s.cursor + i.length } is

/-! ## The prefixes of a Body (R83): LOCK, a segment override, both or neither -/

/-- The prefixes before a Body. -/
structure BodyPrefix where
  lock : Bool
  seg  : Option Sreg
  deriving DecidableEq, Repr

/-- The instruction with its prefixes, LOCK first. -/
def BodyPrefix.wrap (p : BodyPrefix) (i : Instr) : Instr :=
  match p.lock, p.seg with
  | false, none    => i
  | false, some sr => .seg sr i
  | true, none     => .lock i
  | true, some sr  => .lock (.seg sr i)

/-- How many bytes they are. -/
def BodyPrefix.count (p : BodyPrefix) : Nat := (if p.lock then 1 else 0) + (if p.seg.isSome then 1 else 0)

/-- Their bytes (R66). -/
def BodyPrefix.bytes (p : BodyPrefix) : List Byte :=
  (if p.lock then [0xF0#8] else []) ++
  (match p.seg with
    | none     => []
    | some .es => [0x26#8]
    | some .cs => [0x2E#8]
    | some .ss => [0x36#8]
    | some .ds => [0x3E#8])

/-- What LOCK puts in front of the line (R114). -/
def BodyPrefix.lead (p : BodyPrefix) : String := if p.lock then "LOCK " else ""

/-- What the override puts right before the bracket (R115, R161). -/
def BodyPrefix.segText (p : BodyPrefix) : String :=
  match p.seg with
  | none     => ""
  | some .es => "ES:"
  | some .cs => "CS:"
  | some .ss => "SS:"
  | some .ds => "DS:"

/-! ## Operand texts, as the tables of R128 and R160 give them -/

/-- `mod ≠ 11`: the text between qualifier and bracket is `q`, then the override `sg` (R161). -/
def memText (q sg : String) : Mem → String
  | .direct a   => q ++ sg ++ "[" ++ dec a.toNat ++ "]"
  | .base e     => q ++ sg ++ "[" ++ eaText e ++ "]"
  | .disp8 e v  =>
    q ++ sg ++ "[" ++ eaText e ++
      (if 0 ≤ v.toInt then " + " ++ dec v.toInt.toNat else " - " ++ dec (-v.toInt).toNat) ++ "]"
  | .disp16 e v =>
    q ++ sg ++ "[" ++ eaText e ++
      (if 0 ≤ v.toInt then " + " ++ dec v.toInt.toNat else " - " ++ dec (-v.toInt).toNat) ++ "]"

/-- The r/m operand of width `w` (R128). A register takes neither qualifier nor override. -/
def rmText (q sg : String) (w : Width) : Rm → String
  | .reg r => match w with
    | .byte => reg8 r
    | .word => reg16 r
  | .mem m => memText q sg m

/-- `Q(w)` with its space (R162). -/
def sizeText : Width → String
  | .byte => "BYTE "
  | .word => "WORD "

/-- The text of an immediate read by `w` (R130, R163): unsigned. -/
def immWText : ImmW → String
  | .imm8 v  => dec v.toNat
  | .imm16 v => dec v.toNat

/-- The text of a GRP1 immediate (R129, R163): signed where it is sign-extended. -/
def immSWText : ImmSW → String
  | .imm8 _ v => dec v.toNat
  | .sext8 v  => if 0 ≤ v.toInt then dec v.toInt.toNat else "-" ++ dec (-v.toInt).toNat
  | .imm16 v  => dec v.toNat

/-! ## Lengths (R67) -/

/-- `DispLen(mod, rm)`. -/
def dispLenOf (mod : BitVec 2) (rm : BitVec 3) : Nat :=
  if mod = 3 then 0 else if mod = 0 ∧ rm = 6 then 2 else if mod = 0 then 0 else if mod = 1 then 1 else 2

/-- How many bits a dispatch entry's mask has (R78). -/
def maskBits (e : Entry) : Nat := (List.range 8).countP (fun k => e.mask.getLsbD k)

/-- The shape column of R78, entries 1 to 34. -/
def shapes8a : List (List Shape) :=
  [[], [.noOperand], [.noOperand], [.noOperand], [.noOperand], [.shortJump], [.shortJump], [.shortJump],
   [.shortJump], [.shortJump], [.shortJump], [.shortJump], [.shortJump], [.shortJump], [.shortJump],
   [.shortJump], [.shortJump], [.shortJump], [.shortJump], [.shortJump], [.shortJump], [.regMemToFromReg],
   [.regMemToFromReg], [.regMemToFromReg], [.regMemToFromReg], [.noOperand], [.noOperand], [.noOperand],
   [.farProcLabel], [.noOperand], [.noOperand], [.noOperand], [.noOperand], [.noOperand]]

/-- The shape column of R78, entries 35 to 68. -/
def shapes8b : List (List Shape) :=
  [[.other], [.noOperand], [.regMemToFromReg], [.regMemToFromReg], [.other], [.noOperand], [.noOperand],
   [.other], [.noOperand], [.noOperand], [.other], [.other], [.noOperand], [.shortJump], [.shortJump],
   [.shortJump], [.shortJump], [.nearProcLabel], [.nearProcLabel], [.farProcLabel], [.shortJump], [.other],
   [.stringRepeat], [.stringRepeat], [.noOperand], [.noOperand], [.noOperand], [.noOperand], [.noOperand],
   [.noOperand], [.noOperand], [.noOperand], [.regMemToFromReg], [.regMemToFromReg]]

/-- The shape column of R78, entries 69 to 92. -/
def shapes7 : List (List Shape) :=
  [[.immediateToAccumulator], [.immediateToAccumulator], [.immediateToAccumulator], [.immediateToAccumulator],
   [.immediateToAccumulator], [.immediateToAccumulator], [.immediateToAccumulator], [.immediateToAccumulator],
   [.regMemToFromReg], [.regMemToFromReg], [.immediateToAccumulator], [.immediateToAccumulator], [.noOperand],
   [.noOperand], [.immediateToAccumulator], [.noOperand], [.noOperand], [.noOperand], [.immediateToRegMem],
   [.immediateToAccumulator], [.immediateToAccumulator], [.noOperand], [.noOperand],
   [.regMemToFromReg, .immediateToRegMem]]

/-- The shape column of R78, entries 93 to 106. -/
def shapes6 : List (List Shape) :=
  [[.regMemToFromReg], [.segmentRegisterOnly], [.segmentRegisterOnly], [.regMemToFromReg], [.regMemToFromReg],
   [.regMemToFromReg], [.regMemToFromReg], [.segmentRegisterOnly], [.regMemToFromReg], [.regMemToFromReg],
   [.regMemToFromReg], [.immediateToRegMem], [.regMemToFromReg], [.regMemToFromReg]]

/-- The shape column of R78, entries 107 to 112. -/
def shapes5and4 : List (List Shape) :=
  [[.registerOnly], [.registerOnly], [.registerOnly], [.registerOnly], [.registerOnly], [.immediateToRegister]]

/-- The shape column of R78: entry 1 has none, entry 92 has one for TEST and one for its other rows. -/
def shapeColumn : List (List Shape) := shapes8a ++ shapes8b ++ shapes7 ++ shapes6 ++ shapes5and4

/-! ## Encodings the block refuses (R80, R81) -/

/-- The 31 bytes of R80. -/
def refusedBytes : List Byte :=
  [0x0F, 0x60, 0x61, 0x62, 0x63, 0x64, 0x65, 0x66, 0x67, 0x68, 0x69, 0x6A, 0x6B, 0x6C, 0x6D, 0x6E, 0x6F, 0xC0, 0xC1, 0xC8,
   0xC9, 0xD6, 0xD8, 0xD9, 0xDA, 0xDB, 0xDC, 0xDD, 0xDE, 0xDF, 0xF1]

/-- The opcodes of a group with the ModRM.reg values R81(a) reserves. -/
def reservedRegs : List (List Byte × List (BitVec 3)) :=
  [([0xD0, 0xD1, 0xD2, 0xD3], [6]), ([0xF6, 0xF7], [1]), ([0xFE], [2, 3, 4, 5, 6, 7]), ([0xFF], [7]),
   ([0x8F], [1, 2, 3, 4, 5, 6, 7]), ([0xC6, 0xC7], [1, 2, 3, 4, 5, 6, 7])]

/-- A reserved entry of a group (R81(a)). -/
def isReservedReg (op : Byte) (k : BitVec 3) : Bool := reservedRegs.any fun g => g.1.contains op && g.2.contains k

/-- The rows whose operand must be memory (R81(b)): LEA, LDS, LES, and the far indirect CALL and JMP. -/
def isMemoryOnly (op : Byte) (k : BitVec 3) : Bool :=
  op == 0x8D || op == 0xC4 || op == 0xC5 || (op == 0xFF && (k == 3 || k == 5))

/-- A segment-register field past the table (R81(c)). -/
def isBadSreg (op : Byte) (k : BitVec 3) : Bool := (op == 0x8C || op == 0x8E) && decide (4 ≤ k.toNat)

/-- The prefix bytes (R83). -/
def prefixBytes : List Byte := [0xF0, 0xF2, 0xF3, 0x26, 0x2E, 0x36, 0x3E]

/-- The opcodes a repeat prefix may precede (R83). -/
def stringBytes : List Byte := [0xA4, 0xA5, 0xA6, 0xA7, 0xAA, 0xAB, 0xAC, 0xAD, 0xAE, 0xAF]

/-- The opcodes of form ACC_MEM (R78, R145). -/
def accMemBytes : List Byte := [0xA0, 0xA1, 0xA2, 0xA3]

/-- The opcodes with a ModRM byte (R77, R78): `00xxx0xx`, 0x80 to 0x8F, and those of the list. -/
def takesModRM (op : Byte) : Bool :=
  op &&& 0xC4 == 0 || op &&& 0xF0 == 0x80 ||
  [0xC4, 0xC5, 0xC6, 0xC7, 0xD0, 0xD1, 0xD2, 0xD3, 0xF6, 0xF7, 0xFE, 0xFF].contains op

/-- Opcode `op` and the bytes behind it are of an instruction without an explicit memory operand (R83(d)) that no check before
the segment check refuses (R132): the opcode byte alone says so, or the ModRM byte with `mod = 11`. No other byte need be
there. -/
def LacksMemory (op : Byte) (rest : List Byte) : Prop :=
  op ∉ prefixBytes ∧ op ∉ refusedBytes ∧
  ((takesModRM op = false ∧ op ∉ accMemBytes) ∨
   (takesModRM op = true ∧ ∃ k rm r, rest = modRMByte 3 k rm :: r ∧ isReservedReg op k = false ∧ isMemoryOnly op k = false ∧
      isBadSreg op k = false))

/-- Byte `b` of an instruction, behind the bytes `pre` and before `post`, holds the bad field `f` (R384). -/
def HoldsField (f : FieldName) (pre : List Byte) (b : Byte) (post : List Byte) : Prop :=
  match f with
  | .reg => ∃ (p : BodyPrefix) (op : Byte) (mod : BitVec 2) (k rm : BitVec 3),
    pre = p.bytes ++ [op] ∧ b = modRMByte mod k rm ∧ isReservedReg op k = true
  | .mod => ∃ (p : BodyPrefix) (op : Byte) (k rm : BitVec 3),
    pre = p.bytes ++ [op] ∧ b = modRMByte 3 k rm ∧ isMemoryOnly op k = true
  | .sreg => ∃ (p : BodyPrefix) (op : Byte) (mod : BitVec 2) (k rm : BitVec 3),
    pre = p.bytes ++ [op] ∧ b = modRMByte mod k rm ∧ isBadSreg op k = true
  | .aamAadBase => ∃ (lock : Bool) (op : Byte),
    pre = (BodyPrefix.mk lock none).bytes ++ [op] ∧ (op = 0xD4 ∨ op = 0xD5) ∧ b ≠ 0x0A
  | .prefixByte => (pre = [0xF0] ∧ b = 0xF0) ∨
    ∃ (lock : Bool) (sr : Sreg), pre = (BodyPrefix.mk lock (some sr)).bytes ∧ b ∈ prefixBytes
  | .repFollow => ∃ (lock : Bool) (r : Byte),
    pre = (BodyPrefix.mk lock none).bytes ++ [r] ∧ (r = 0xF2 ∨ r = 0xF3) ∧ b ∉ stringBytes
  | .segmentOverride => ∃ (lock : Bool) (sr : Sreg) (op : Byte) (rest : List Byte),
    pre = (BodyPrefix.mk lock none).bytes ∧ [b] = (BodyPrefix.mk false (some sr)).bytes ∧ post = op :: rest ∧
    LacksMemory op rest

end Sys2Proof
end

