-- ==== Sys2Proof/Certificates/Slice0/Obligations.lean ====
section
/-! DEFINITION. The statements for the provers. The rules are those of spec/; `exec`, `step`, `decodeOne` and `encode` are the
model's. A line is written in a statement from the texts of Safety.lean, not from the formatter. A record written
⟨kind, instr_start, offset, byte, field, missing⟩ is an ErrorRecord. -/

open Sys2Proof Sys2Proof.Machine

/-- O1. What reset leaves (R34, R167, R401). That the header line keeps R167's text for a name that is empty or ends in a space is the model's choice (log 20, DESIGN CHOICE). -/
def Obligations.ResetValues : Prop :=
  ∀ (buf : List Byte) (name : String) (base : Word),
    let s := State.resetWith buf name base
    s.cursor = 0 ∧ s.status = .running ∧ s.error = none ∧ s.listing = ["; " ++ name, "bits 16"] ∧
    s.buf = buf ∧ s.sourceName = name ∧ s.loadBase = base

/-- O2. R35. The header line of a name that is empty or ends in a space is the model's choice (log 20, DESIGN CHOICE). -/
def Obligations.EmptyBufferEndsAtOnce : Prop :=
  ∀ (name : String) (base : Word),
    let s := State.resetWith [] name base
    s.cursor = s.len ∧
    ∃ t, step s = .next t ∧ t.status = .done ∧ t.listing = [headerLine name, directiveLine] ∧ t.cursor = s.cursor ∧
      t.error = none

/-- O3. The reset state meets the invariant. The premise on the name is the spec's own (D5). -/
def Obligations.InvReset : Prop :=
  ∀ (buf : List Byte) (name : String) (base : Word), isPlain name = true → Inv (State.resetWith buf name base)

/-- O4. The headline invariant (Safety.lean). It holds of states no run reaches as well, as long as they have Inv. -/
def Obligations.InvStep : Prop :=
  ∀ s t : State, Inv s → step s = .next t → Inv t

/-- O5. The transitions of R36 and what each does (R111). -/
def Obligations.StepTransitions : Prop :=
  ∀ s t : State, step s = .next t →
    s.status = .running ∧
    ((t.status = .running ∧ s.cursor ≠ s.len ∧ s.cursor < t.cursor ∧
        ∃ line, t = { s with listing := s.listing ++ [line], cursor := t.cursor }) ∨
     (t.status = .done ∧ s.cursor = s.len ∧ t = { s with status := .done }) ∨
     (t.status = .error ∧ s.cursor ≠ s.len ∧
        ∃ e, decodeOne s.buf s.cursor = .error e ∧ t = { s with status := .error, error := some e }))

/-- O6. `Running` means the block may take another step (R25). -/
def Obligations.RunningStateSteps : Prop :=
  ∀ s : State, s.status = .running → ∃ t, step s = .next t

/-- O7. No step is enabled from Done and Error (R25, R36, R388). That this is a fault is the model's choice (log 4). -/
def Obligations.TerminalStatesStop : Prop :=
  ∀ s : State, s.status = .done ∨ s.status = .error → step s = .fault .stepNotEnabled

/-- O8. Trap entry (R387): the four effects, and that there is no other. -/
def Obligations.ErrorEntry : Prop :=
  ∀ (s : State) (e : ErrorRecord), s.status = .running → s.cursor ≠ s.len → decodeOne s.buf s.cursor = .error e →
    ∃ t, step s = .next t ∧ t.status = .error ∧ t.error = some e ∧ t.cursor = s.cursor ∧ e.instrStart = s.cursor ∧
      t.listing = s.listing ∧ t.buf = s.buf ∧ t.sourceName = s.sourceName ∧ t.loadBase = s.loadBase ∧
      (∀ a, memRead t a = memRead s a)

/-- O9. A step decodes and emits (R111, R112). That DecodeOne is split into decodeOne and exec, and that the cursor's move past the instruction stands inside exec, is the model's choice (log 12, DESIGN CHOICE), not a rule's. -/
def Obligations.StepRunsDecodedInstruction : Prop :=
  ∀ (s : State) (i : Instr) (n : Nat), s.status = .running → s.cursor ≠ s.len → decodeOne s.buf s.cursor = .ok (i, n) →
    step s = exec i s

/-- O10. The frame of all 135 instructions: the block has no registers, flags or memory to change (R30), and one row of the table differs from another only in its line and its length. The clause WellFormed i, that exec answers no next state on a term that is no instruction, is the model's choice (log 10, DESIGN CHOICE), not a rule's. -/
def Obligations.InstructionFrame : Prop :=
  ∀ (i : Instr) (s t : State), exec i s = .next t →
    WellFormed i ∧ (∃ line, t.listing = s.listing ++ [line]) ∧ t.cursor = s.cursor + (encode i).length ∧
    t.status = s.status ∧ t.error = s.error ∧ t.buf = s.buf ∧ t.sourceName = s.sourceName ∧ t.loadBase = s.loadBase ∧
    (∀ a, memRead t a = memRead s a)

/-- O11. Every instruction completes; "No line has leading or trailing spaces" (R159). -/
def Obligations.InstructionCompletes : Prop :=
  ∀ (i : Instr) (s : State), WellFormed i →
    ∃ t line, exec i s = .next t ∧ t.listing = s.listing ++ [line] ∧ t.cursor = s.cursor + (encode i).length ∧
      line ≠ "" ∧ line.toList.head? ≠ some ' ' ∧ line.toList.getLast? ≠ some ' '

/-- O12. No bit of an encoding is dropped, with every operand at every value. -/
def Obligations.DecodeOfEncode : Prop :=
  ∀ (i : Instr) (buf : List Byte) (start : Nat) (tail : List Byte), WellFormed i → buf.drop start = encode i ++ tail →
    decodeOne buf start = .ok (i, start + (encode i).length)

/-- O13. The consumption invariant (R169): the bytes read are exactly Buf[start .. next-1]. -/
def Obligations.DecodeIsSound : Prop :=
  ∀ (buf : List Byte) (start : Nat) (i : Instr) (next : Nat), decodeOne buf start = .ok (i, next) →
    WellFormed i ∧ next = start + (encode i).length ∧ start < next ∧ next ≤ buf.length ∧
    buf.drop start = encode i ++ buf.drop next

/-- O14. R67, form by form. -/
def Obligations.LengthByForm : Prop :=
  (∀ (x : Rm) (k : BitVec 3) (m : Byte) (r : List Byte), x.wf = true → x.bytes k = m :: r →
    r.length = dispLenOf (ModRM.of m 0).mod (ModRM.of m 0).rm ∧ r.length = x.dispLen ∧
    (ModRM.of m 0).reg = k) ∧
  (∀ mk ∈ ([.movRmReg, .addRmReg, .adcRmReg, .sbbRmReg, .subRmReg, .cmpRmReg, .orRmReg, .andRmReg, .xorRmReg] :
      List (Dir → Width → RegField → Rm → Instr)), ∀ d w reg x, (encode (mk d w reg x)).length = 2 + x.dispLen) ∧
  (∀ mk ∈ ([.xchgRmReg, .testRmReg] : List (Width → RegField → Rm → Instr)),
    ∀ w reg x, (encode (mk w reg x)).length = 2 + x.dispLen) ∧
  (∀ mk ∈ ([.lea, .lds, .les] : List (RegField → Mem → Instr)),
    ∀ reg m, (encode (mk reg m)).length = 2 + (Rm.mem m).dispLen) ∧
  (∀ mk ∈ ([.movRmSreg, .movSregRm] : List (Sreg → Rm → Instr)), ∀ sr x, (encode (mk sr x)).length = 2 + x.dispLen) ∧
  (∀ mk ∈ ([.incRm, .decRm, .neg, .mul, .imul, .div, .idiv, .not] : List (Width → Rm → Instr)),
    ∀ w x, (encode (mk w x)).length = 2 + x.dispLen) ∧
  (∀ mk ∈ ([.pushRm, .popRm, .callRm, .jmpRm] : List (Rm → Instr)), ∀ x, (encode (mk x)).length = 2 + x.dispLen) ∧
  (∀ mk ∈ ([.callFarMem, .jmpFarMem] : List (Mem → Instr)), ∀ m, (encode (mk m)).length = 2 + (Rm.mem m).dispLen) ∧
  (∀ mk ∈ ([.rol, .ror, .rcl, .rcr, .shl, .shr, .sar] : List (ShiftCount → Width → Rm → Instr)),
    ∀ v w x, (encode (mk v w x)).length = 2 + x.dispLen) ∧
  (∀ mk ∈ ([.addRmImm, .adcRmImm, .sbbRmImm, .subRmImm, .cmpRmImm, .orRmImm, .andRmImm, .xorRmImm] :
      List (Rm → ImmSW → Instr)), ∀ x im b r, encode (mk x im) = b :: r →
      1 + r.length = 2 + x.dispLen + (if fieldW b = .byte ∨ fieldS b = true then 1 else 2)) ∧
  (∀ mk ∈ ([.movRmImm, .testRmImm] : List (Rm → ImmW → Instr)), ∀ x im b r, encode (mk x im) = b :: r →
      1 + r.length = 2 + x.dispLen + (if fieldW b = .byte then 1 else 2)) ∧
  (∀ mk ∈ ([.addAccImm, .adcAccImm, .sbbAccImm, .subAccImm, .cmpAccImm, .orAccImm, .andAccImm, .xorAccImm,
      .testAccImm] : List (ImmW → Instr)), ∀ im b r, encode (mk im) = b :: r →
      1 + r.length = if fieldW b = .byte then 2 else 3) ∧
  (∀ mk ∈ ([.movAccMem, .movMemAcc] : List (Width → Word → Instr)), ∀ w a, (encode (mk w a)).length = 3) ∧
  (∀ ri b r, encode (.movRegImm ri) = b :: r → 1 + r.length = if b.getLsbD 3 = false then 2 else 3) ∧
  (∀ mk ∈ ([.pushReg, .popReg, .xchgAxReg, .incReg, .decReg] : List (RegField → Instr)),
    ∀ r, (encode (mk r)).length = 1) ∧
  (∀ mk ∈ ([.pushSreg, .popSreg] : List (Sreg → Instr)), ∀ sr, (encode (mk sr)).length = 1) ∧
  (∀ mk ∈ ([.movs, .cmps, .scas, .lods, .stos, .inDx, .outDx] : List (Width → Instr)),
    ∀ w, (encode (mk w)).length = 1) ∧
  (∀ i ∈ ([.xlat, .lahf, .sahf, .pushf, .popf, .aaa, .daa, .aas, .das, .cbw, .cwd, .ret, .retf, .int3, .into, .iret, .clc,
      .cmc, .stc, .cld, .std, .cli, .sti, .hlt, .wait, .nop] : List Instr), (encode i).length = 1) ∧
  (∀ mk ∈ ([.jmpShort, .jo, .jno, .jb, .jnb, .jz, .jnz, .jbe, .ja, .js, .jns, .jp, .jnp, .jl, .jnl, .jle, .jg, .loop,
      .loopz, .loopnz, .jcxz, .int] : List (Byte → Instr)), ∀ v, (encode (mk v)).length = 2) ∧
  (∀ mk ∈ ([.inPort, .outPort] : List (Width → Byte → Instr)), ∀ w v, (encode (mk w v)).length = 2) ∧
  (∀ i ∈ ([.aam, .aad] : List Instr), (encode i).length = 2) ∧
  (∀ mk ∈ ([.callNear, .jmpNear, .retImm, .retfImm] : List (Word → Instr)), ∀ v, (encode (mk v)).length = 3) ∧
  (∀ mk ∈ ([.callFar, .jmpFar] : List (Word → Word → Instr)), ∀ u v, (encode (mk u v)).length = 5) ∧
  (∀ (body : Instr) (sr : Sreg), ∀ i ∈ [Instr.lock body, .seg sr body, .rep body, .repne body],
    (encode i).length = 1 + (encode body).length) ∧
  (∀ i : Instr, WellFormed i → 1 ≤ (encode i).length ∧ (encode i).length ≤ 8) ∧
  (∃ i : Instr, WellFormed i ∧ (encode i).length = 8)

/-- O15. R78 and R19. Two masks disagree on a common bit exactly when no byte matches both entries. -/
def Obligations.DispatchTableOrdered : Prop :=
  dispatchTable.length = 112 ∧
  (∀ e ∈ dispatchTable, e.pat &&& e.mask = e.pat ∧ maskBits e ∈ [8, 7, 6, 5, 4]) ∧
  dispatchTable.Pairwise (fun e f => maskBits f ≤ maskBits e ∧
    (maskBits e = maskBits f → e.pat.toNat < f.pat.toNat ∧ e.pat &&& f.mask ≠ f.pat &&& e.mask)) ∧
  shapeColumn.length = 112 ∧
  (∀ p ∈ dispatchTable.zip shapeColumn, ∀ sh : Shape, (∃ k, p.1.target.shapeAt k = some sh) ↔ sh ∈ p.2) ∧
  (∀ k, (Target.group .grp3).shapeAt k = some .immediateToRegMem ↔ k = 0) ∧
  (∀ (i : Instr) (b : Byte) (r : List Byte), WellFormed i → i.isPrefixed = false → encode i = b :: r →
    ∃ t, dispatch b = some t ∧ t.shapeAt (ModRM.of (r.headD 0) 0).reg = some i.shape) ∧
  (∀ (i : Instr) (b : Byte) (r : List Byte), i.isPrefixed = true → encode i = b :: r →
    ∃ e, firstEntry b = some e ∧ ∀ k, e.target.shapeAt k = some i.shape)

/-- O16. R80 and R119: never guess or silently skip. -/
def Obligations.RefusedOpcodes : Prop :=
  refusedBytes.length = 31 ∧ (∀ b : Byte, (dispatch b).isNone = true ↔ b ∈ refusedBytes) ∧
  (∀ (p : BodyPrefix) (b : Byte) (buf tail : List Byte) (start : Nat), b ∈ refusedBytes →
    buf.drop start = p.bytes ++ b :: tail →
    decodeOne buf start = .error ⟨.unknownOpcode, start, start + p.count, some b, none, none⟩)

/-- O17. Sanity: a few words read by the decoder. -/
def Obligations.DecodeWords : Prop :=
  decodeTableWord 16 0b1000100111011000 = some (.movRmReg .rmFirst .word 3 (.reg 0)) ∧
  decodeTableWord 24 0b100000111100000111111111 = some (.addRmImm (.reg 1) (.sext8 0xFF)) ∧
  decodeTableWord 16 0b1101001111100000 = some (.shl .cl .word (.reg 0)) ∧
  decodeTableWord 8 0b10100101 = some (.movs .word) ∧
  decodeTableWord 16 0b0111010000000010 = some (.jz 2) ∧
  decodeTableWord 24 0b111100001111111000000111 = some (.lock (.incRm .byte (.mem (.base .bx)))) ∧
  decodeTableWord 8 0b11110100 = some .hlt

/-- O18. R48. The cursor's third component is the buffer from c on. -/
def Obligations.ReadByteRule : Prop :=
  ∀ (buf : List Byte) (start c : Nat),
    (∀ h : c < buf.length, Cursor.readByte ⟨start, c, buf.drop c⟩ = .ok (buf[c], ⟨start, c + 1, buf.drop (c + 1)⟩)) ∧
    (buf.length ≤ c → Cursor.readByte ⟨start, c, buf.drop c⟩ = .error ⟨.unexpectedEndOfStream, start, c, none, none, some 1⟩)

/-- O19. R49. The read position never passes Len, so c <= Len is no restriction within a step. -/
def Obligations.ReadWordRule : Prop :=
  ∀ (buf : List Byte) (start c : Nat),
    (∀ h : c + 2 ≤ buf.length, ∃ v : Word, v.toNat = (buf[c]).toNat + 256 * (buf[c + 1]).toNat ∧
      Cursor.readWord ⟨start, c, buf.drop c⟩ = .ok (v, ⟨start, c + 2, buf.drop (c + 2)⟩)) ∧
    (c ≤ buf.length → buf.length < c + 2 →
      Cursor.readWord ⟨start, c, buf.drop c⟩ = .error ⟨.unexpectedEndOfStream, start, c, none, none, some (c + 2 - buf.length)⟩)

/-- O20. The address map of R53. That memory is also held as a list of cells is the model's choice (log 6). -/
def Obligations.MemoryIsTheBuffer : Prop :=
  ∀ s : State, Memory.wf s.memory = true ∧ s.memory.length = s.len ∧
    (∀ a, (h : a < s.len) → Memory.read s.memory a = some s.buf[a]) ∧ (∀ a, s.len ≤ a → Memory.read s.memory a = none)

/-- O21. The table of R385, with the codes of R381 and the bytes that hold the fields (R383, R384; HoldsField, Safety.lean). -/
def Obligations.ErrorRecordFields : Prop :=
  ∀ (buf : List Byte) (start : Nat) (e : ErrorRecord), start ≤ buf.length → decodeOne buf start = .error e →
    e.instrStart = start ∧
    ((e.kind = .unexpectedEndOfStream ∧ e.code = 1 ∧ e.byte = none ∧ e.field = none ∧ start ≤ e.offset ∧
        ∃ w, (w = 1 ∨ w = 2) ∧ e.offset ≤ buf.length ∧ buf.length < e.offset + w ∧
          e.missing = some (e.offset + w - buf.length) ∧
          decodeOne (buf.take e.offset) start = .error ⟨.unexpectedEndOfStream, start, e.offset, none, none, some w⟩) ∨
     (e.kind = .unknownOpcode ∧ e.code = 2 ∧ e.field = none ∧ e.missing = none ∧
        ∃ (p : BodyPrefix) (b : Byte) (post : List Byte), buf.drop start = p.bytes ++ b :: post ∧ b ∈ refusedBytes ∧
          e.byte = some b ∧ e.offset = start + p.count) ∨
     (e.kind = .invalidField ∧ e.code = 3 ∧ e.missing = none ∧
        ∃ (f : FieldName) (pre : List Byte) (b : Byte) (post : List Byte), buf.drop start = pre ++ b :: post ∧
          e.field = some f ∧ e.byte = some b ∧ e.offset = start + pre.length ∧ HoldsField f pre b post))

/-- O22. R169: if any of the bytes lies past Len the step raises UnexpectedEndOfStream instead. Every field of the prefix was valid. -/
def Obligations.TruncatedInstruction : Prop :=
  ∀ (i : Instr) (k : Nat) (buf : List Byte) (start : Nat), WellFormed i → start ≤ buf.length → k < (encode i).length →
    buf.drop start = (encode i).take k →
    ∃ e, decodeOne buf start = .error e ∧ e.kind = .unexpectedEndOfStream ∧ e.instrStart = start ∧ start ≤ e.offset ∧
      e.offset ≤ buf.length ∧ buf.length ≤ e.offset + 1

/-- O23. No byte is read past the end of the instruction (R132). -/
def Obligations.LaterBytesDoNotMatter : Prop :=
  ∀ (buf more : List Byte) (start : Nat),
    (∀ i next, decodeOne buf start = .ok (i, next) →
      decodeOne (buf ++ more) start = .ok (i, next) ∧ decodeOne (buf.take next) start = .ok (i, next)) ∧
    (∀ e, decodeOne buf start = .error e → e.kind ≠ .unexpectedEndOfStream → decodeOne (buf ++ more) start = .error e)

/-- O24. There is no alignment requirement (R51): an instruction may start at any offset. -/
def Obligations.EarlierBytesDoNotMatter : Prop :=
  ∀ (front buf : List Byte) (start : Nat),
    (∀ i next, decodeOne buf start = .ok (i, next) →
      decodeOne (front ++ buf) (front.length + start) = .ok (i, front.length + next)) ∧
    (∀ e, decodeOne buf start = .error e →
      decodeOne (front ++ buf) (front.length + start) =
        .error { e with instrStart := front.length + e.instrStart, offset := front.length + e.offset })

/-- O25. R120 and R81(a). -/
def Obligations.ReservedGroupEncodings : Prop :=
  ∀ g ∈ reservedRegs, ∀ b ∈ g.1, ∀ k ∈ g.2, ∀ (mod : BitVec 2) (rm : BitVec 3) (p : BodyPrefix) (buf tail : List Byte)
    (start : Nat), buf.drop start = p.bytes ++ b :: modRMByte mod k rm :: tail →
    decodeOne buf start = .error ⟨.invalidField, start, start + p.count + 1, some (modRMByte mod k rm), some .reg, none⟩

/-- O26. The checks of R121 and R154. -/
def Obligations.InvalidFieldEncodings : Prop :=
  (∀ (b : Byte) (k rm : BitVec 3) (p : BodyPrefix) (buf tail : List Byte) (start : Nat),
    (b = 0x8D ∨ b = 0xC4 ∨ b = 0xC5 ∨ (b = 0xFF ∧ (k = 3 ∨ k = 5))) →
    buf.drop start = p.bytes ++ b :: modRMByte 3 k rm :: tail →
    decodeOne buf start = .error ⟨.invalidField, start, start + p.count + 1, some (modRMByte 3 k rm), some .mod, none⟩) ∧
  (∀ (b : Byte) (mod : BitVec 2) (k rm : BitVec 3) (p : BodyPrefix) (buf tail : List Byte) (start : Nat),
    b = 0x8C ∨ b = 0x8E → 4 ≤ k.toNat → buf.drop start = p.bytes ++ b :: modRMByte mod k rm :: tail →
    decodeOne buf start = .error ⟨.invalidField, start, start + p.count + 1, some (modRMByte mod k rm), some .sreg, none⟩) ∧
  (∀ (b x : Byte) (lock : Bool) (buf tail : List Byte) (start : Nat), b = 0xD4 ∨ b = 0xD5 → x ≠ 0x0A →
    buf.drop start = (BodyPrefix.mk lock none).bytes ++ b :: x :: tail →
    decodeOne buf start = .error ⟨.invalidField, start, start + (BodyPrefix.mk lock none).count + 1, some x, some .aamAadBase, none⟩)

/-- O27. The prefix errors of R113. -/
def Obligations.PrefixMisuse : Prop :=
  (∀ (buf tail : List Byte) (start : Nat), buf.drop start = 0xF0 :: 0xF0 :: tail →
    decodeOne buf start = .error ⟨.invalidField, start, start + 1, some 0xF0, some .prefixByte, none⟩) ∧
  (∀ (lock : Bool) (sr : Sreg) (b : Byte) (buf tail : List Byte) (start : Nat),
    b ∈ [0xF0#8, 0xF2#8, 0xF3#8, 0x26#8, 0x2E#8, 0x36#8, 0x3E#8] →
    buf.drop start = (BodyPrefix.mk lock (some sr)).bytes ++ b :: tail →
    decodeOne buf start = .error ⟨.invalidField, start, start + (BodyPrefix.mk lock (some sr)).count, some b, some .prefixByte, none⟩) ∧
  (∀ (lock : Bool) (r b : Byte) (buf tail : List Byte) (start : Nat), r = 0xF2 ∨ r = 0xF3 →
    b ∉ [0xA4#8, 0xA5#8, 0xA6#8, 0xA7#8, 0xAA#8, 0xAB#8, 0xAC#8, 0xAD#8, 0xAE#8, 0xAF#8] →
    buf.drop start = (BodyPrefix.mk lock none).bytes ++ r :: b :: tail →
    decodeOne buf start = .error ⟨.invalidField, start, start + (BodyPrefix.mk lock none).count + 1, some b, some .repFollow, none⟩)

/-- O28. R122 and R386(e): nothing behind the opcode byte, or behind the ModRM byte, need be there (LacksMemory, Safety.lean). -/
def Obligations.SegmentOverrideNeedsMemory : Prop :=
  (∀ (i : Instr) (lock : Bool) (sr : Sreg) (buf tail : List Byte) (start : Nat), WellFormed i → i.isPrefixed = false →
    i.hasMem = false → buf.drop start = (BodyPrefix.mk lock (some sr)).bytes ++ (encode i ++ tail) →
    ∃ b, (BodyPrefix.mk false (some sr)).bytes = [b] ∧
      decodeOne buf start = .error ⟨.invalidField, start, start + (if lock then 1 else 0), some b, some .segmentOverride, none⟩) ∧
  (∀ (op : Byte) (rest : List Byte) (lock : Bool) (sr : Sreg) (buf : List Byte) (start : Nat), LacksMemory op rest →
    buf.drop start = (BodyPrefix.mk lock (some sr)).bytes ++ op :: rest →
    ∃ b, (BodyPrefix.mk false (some sr)).bytes = [b] ∧
      decodeOne buf start = .error ⟨.invalidField, start, start + (if lock then 1 else 0), some b, some .segmentOverride, none⟩)

/-- O29. Form RM_REG_D (R136). -/
def Obligations.RegisterMemoryRows : Prop :=
  ∀ row ∈ ([(.movRmReg, "MOV"), (.addRmReg, "ADD"), (.adcRmReg, "ADC"), (.sbbRmReg, "SBB"), (.subRmReg, "SUB"),
     (.cmpRmReg, "CMP"), (.orRmReg, "OR"), (.andRmReg, "AND"), (.xorRmReg, "XOR")] :
    List ((Dir → Width → RegField → Rm → Instr) × String)),
  ∀ (p : BodyPrefix) (d : Dir) (w : Width) (reg : RegField) (x : Rm) (s : State), WellFormed (p.wrap (row.1 d w reg x)) →
    exec (p.wrap (row.1 d w reg x)) s = .next (s.emit
      (p.lead ++ row.2 ++ " " ++
        (match d with
          | .regFirst => rmText "" p.segText w (.reg reg) ++ ", " ++ rmText "" p.segText w x
          | .rmFirst  => rmText "" p.segText w x ++ ", " ++ rmText "" p.segText w (.reg reg)))
      (s.cursor + p.count + 2 + x.dispLen))

/-- O30. Form RM_REG (R137). -/
def Obligations.ExchangeAndTestRows : Prop :=
  ∀ row ∈ ([(.xchgRmReg, "XCHG"), (.testRmReg, "TEST")] :
    List ((Width → RegField → Rm → Instr) × String)),
  ∀ (p : BodyPrefix) (w : Width) (reg : RegField) (x : Rm) (s : State), WellFormed (p.wrap (row.1 w reg x)) →
    exec (p.wrap (row.1 w reg x)) s = .next (s.emit
      (p.lead ++ row.2 ++ " " ++ rmText "" p.segText w x ++ ", " ++ rmText "" p.segText w (.reg reg))
      (s.cursor + p.count + 2 + x.dispLen))

/-- O31. Form REG_MEM (R138). -/
def Obligations.LoadAddressRows : Prop :=
  ∀ row ∈ ([(.lea, "LEA"), (.lds, "LDS"), (.les, "LES")] :
    List ((RegField → Mem → Instr) × String)),
  ∀ (p : BodyPrefix) (reg : RegField) (m : Mem) (s : State), WellFormed (p.wrap (row.1 reg m)) →
    exec (p.wrap (row.1 reg m)) s = .next (s.emit
      (p.lead ++ row.2 ++ " " ++ reg16 reg ++ ", " ++ memText "" p.segText m)
      (s.cursor + p.count + 2 + m.dispLen))

/-- O32. Form RM_SREG (R139). -/
def Obligations.SegmentRegisterMoves : Prop :=
  ∀ (p : BodyPrefix) (sr : Sreg) (x : Rm) (s : State),
    (WellFormed (p.wrap (.movRmSreg sr x)) →
      exec (p.wrap (.movRmSreg sr x)) s = .next (s.emit
        (p.lead ++ "MOV " ++ rmText "" p.segText .word x ++ ", " ++ sregName sr) (s.cursor + p.count + 2 + x.dispLen))) ∧
    (WellFormed (p.wrap (.movSregRm sr x)) →
      exec (p.wrap (.movSregRm sr x)) s = .next (s.emit
        (p.lead ++ "MOV " ++ sregName sr ++ ", " ++ rmText "" p.segText .word x) (s.cursor + p.count + 2 + x.dispLen)))

/-- O33. Form GRP_RM_IMM_SW (R140, R129). -/
def Obligations.ArithmeticImmediateRows : Prop :=
  ∀ row ∈ ([(.addRmImm, "ADD"), (.adcRmImm, "ADC"), (.sbbRmImm, "SBB"), (.subRmImm, "SUB"), (.cmpRmImm, "CMP"),
     (.orRmImm, "OR"), (.andRmImm, "AND"), (.xorRmImm, "XOR")] :
    List ((Rm → ImmSW → Instr) × String)),
  ∀ (p : BodyPrefix) (x : Rm) (im : ImmSW) (s : State), WellFormed (p.wrap (row.1 x im)) →
    exec (p.wrap (row.1 x im)) s = .next (s.emit
      (p.lead ++ row.2 ++ " " ++ rmText (sizeText im.width) p.segText im.width x ++ ", " ++ immSWText im)
      (s.cursor + p.count + 2 + x.dispLen + im.dataLen))

/-- O34. Form GRP_RM_IMM_W (R141, R130). -/
def Obligations.MoveAndTestImmediateRows : Prop :=
  ∀ row ∈ ([(.movRmImm, "MOV"), (.testRmImm, "TEST")] :
    List ((Rm → ImmW → Instr) × String)),
  ∀ (p : BodyPrefix) (x : Rm) (im : ImmW) (s : State), WellFormed (p.wrap (row.1 x im)) →
    exec (p.wrap (row.1 x im)) s = .next (s.emit
      (p.lead ++ row.2 ++ " " ++ rmText (sizeText im.width) p.segText im.width x ++ ", " ++ immWText im)
      (s.cursor + p.count + 2 + x.dispLen + im.dataLen))

/-- O35. Form GRP_RM (R142). -/
def Obligations.UnaryRows : Prop :=
  (∀ row ∈ ([(.incRm, "INC"), (.decRm, "DEC"), (.neg, "NEG"), (.mul, "MUL"), (.imul, "IMUL"), (.div, "DIV"),
     (.idiv, "IDIV"), (.not, "NOT")] :
    List ((Width → Rm → Instr) × String)),
    ∀ (p : BodyPrefix) (w : Width) (x : Rm) (s : State), WellFormed (p.wrap (row.1 w x)) →
      exec (p.wrap (row.1 w x)) s = .next (s.emit
        (p.lead ++ row.2 ++ " " ++ rmText (sizeText w) p.segText w x) (s.cursor + p.count + 2 + x.dispLen))) ∧
  (∀ row ∈ ([(.pushRm, "PUSH"), (.popRm, "POP")] :
    List ((Rm → Instr) × String)),
    ∀ (p : BodyPrefix) (x : Rm) (s : State), WellFormed (p.wrap (row.1 x)) →
      exec (p.wrap (row.1 x)) s = .next (s.emit
        (p.lead ++ row.2 ++ " " ++ rmText "WORD " p.segText .word x) (s.cursor + p.count + 2 + x.dispLen)))

/-- O36. Form GRP_RM, the control transfers (R142). -/
def Obligations.IndirectCallsAndJumps : Prop :=
  (∀ row ∈ ([(.callRm, "CALL"), (.jmpRm, "JMP")] :
    List ((Rm → Instr) × String)),
    ∀ (p : BodyPrefix) (x : Rm) (s : State), WellFormed (p.wrap (row.1 x)) →
      exec (p.wrap (row.1 x)) s = .next (s.emit
        (p.lead ++ row.2 ++ " " ++ rmText "" p.segText .word x) (s.cursor + p.count + 2 + x.dispLen))) ∧
  (∀ row ∈ ([(.callFarMem, "CALL"), (.jmpFarMem, "JMP")] :
    List ((Mem → Instr) × String)),
    ∀ (p : BodyPrefix) (m : Mem) (s : State), WellFormed (p.wrap (row.1 m)) →
      exec (p.wrap (row.1 m)) s = .next (s.emit
        (p.lead ++ row.2 ++ " " ++ memText "FAR " p.segText m) (s.cursor + p.count + 2 + m.dispLen)))

/-- O37. Form GRP_SHIFT (R143). -/
def Obligations.ShiftRows : Prop :=
  ∀ row ∈ ([(.rol, "ROL"), (.ror, "ROR"), (.rcl, "RCL"), (.rcr, "RCR"), (.shl, "SHL"), (.shr, "SHR"),
     (.sar, "SAR")] :
    List ((ShiftCount → Width → Rm → Instr) × String)),
  ∀ (p : BodyPrefix) (v : ShiftCount) (w : Width) (x : Rm) (s : State), WellFormed (p.wrap (row.1 v w x)) →
    exec (p.wrap (row.1 v w x)) s = .next (s.emit
      (p.lead ++ row.2 ++ " " ++ rmText (sizeText w) p.segText w x ++ ", " ++
        (match v with
          | .one => "1"
          | .cl  => "CL"))
      (s.cursor + p.count + 2 + x.dispLen))

/-- O38. Form ACC_IMM (R144). -/
def Obligations.AccumulatorImmediateRows : Prop :=
  ∀ row ∈ ([(.addAccImm, "ADD"), (.adcAccImm, "ADC"), (.sbbAccImm, "SBB"), (.subAccImm, "SUB"),
     (.cmpAccImm, "CMP"), (.orAccImm, "OR"), (.andAccImm, "AND"), (.xorAccImm, "XOR"),
     (.testAccImm, "TEST")] :
    List ((ImmW → Instr) × String)),
  ∀ (lock : Bool) (s : State),
    (∀ v : Byte, exec (if lock then .lock (row.1 (.imm8 v)) else row.1 (.imm8 v)) s = .next (s.emit
      ((if lock then "LOCK " else "") ++ row.2 ++ " AL, " ++ dec v.toNat) (s.cursor + (if lock then 1 else 0) + 2))) ∧
    (∀ v : Word, exec (if lock then .lock (row.1 (.imm16 v)) else row.1 (.imm16 v)) s = .next (s.emit
      ((if lock then "LOCK " else "") ++ row.2 ++ " AX, " ++ dec v.toNat) (s.cursor + (if lock then 1 else 0) + 3)))

/-- O39. Form ACC_MEM (R145). -/
def Obligations.AccumulatorMemoryMoves : Prop :=
  ∀ (p : BodyPrefix) (w : Width) (a : Word) (s : State),
    exec (p.wrap (.movAccMem w a)) s = .next (s.emit
      (p.lead ++ "MOV " ++ accName w ++ ", " ++ p.segText ++ "[" ++ dec a.toNat ++ "]") (s.cursor + p.count + 3)) ∧
    exec (p.wrap (.movMemAcc w a)) s = .next (s.emit
      (p.lead ++ "MOV " ++ p.segText ++ "[" ++ dec a.toNat ++ "]" ++ ", " ++ accName w) (s.cursor + p.count + 3))

/-- O40. Form REG_IMM (R146). -/
def Obligations.RegisterImmediateMove : Prop :=
  ∀ (lock : Bool) (r : RegField) (s : State),
    (∀ v : Byte, exec (if lock then .lock (.movRegImm (.r8 r v)) else .movRegImm (.r8 r v)) s = .next (s.emit
      ((if lock then "LOCK " else "") ++ "MOV " ++ reg8 r ++ ", " ++ dec v.toNat)
      (s.cursor + (if lock then 1 else 0) + 2))) ∧
    (∀ v : Word, exec (if lock then .lock (.movRegImm (.r16 r v)) else .movRegImm (.r16 r v)) s = .next (s.emit
      ((if lock then "LOCK " else "") ++ "MOV " ++ reg16 r ++ ", " ++ dec v.toNat)
      (s.cursor + (if lock then 1 else 0) + 3)))

/-- O41. Forms REG16 and SREG (R147, R148). POP CS is no instruction (R80), 0x90 is NOP (R82). -/
def Obligations.ShortRegisterRows : Prop :=
  ∀ (lock : Bool) (s : State),
    (∀ row ∈ ([(.pushReg, "PUSH"), (.popReg, "POP"), (.incReg, "INC"), (.decReg, "DEC")] :
    List ((RegField → Instr) × String)),
      ∀ r : RegField, exec (if lock then .lock (row.1 r) else row.1 r) s = .next (s.emit
        ((if lock then "LOCK " else "") ++ row.2 ++ " " ++ reg16 r) (s.cursor + (if lock then 1 else 0) + 1))) ∧
    (∀ r : RegField, r ≠ 0 → exec (if lock then .lock (.xchgAxReg r) else .xchgAxReg r) s = .next (s.emit
        ((if lock then "LOCK " else "") ++ "XCHG AX, " ++ reg16 r) (s.cursor + (if lock then 1 else 0) + 1))) ∧
    (∀ sr : Sreg, exec (if lock then .lock (.pushSreg sr) else .pushSreg sr) s = .next (s.emit
        ((if lock then "LOCK " else "") ++ "PUSH " ++ sregName sr) (s.cursor + (if lock then 1 else 0) + 1))) ∧
    (∀ sr : Sreg, sr ≠ .cs → exec (if lock then .lock (.popSreg sr) else .popSreg sr) s = .next (s.emit
        ((if lock then "LOCK " else "") ++ "POP " ++ sregName sr) (s.cursor + (if lock then 1 else 0) + 1)))

/-- O42. Form REL8 (R149, R133). -/
def Obligations.ShortBranchRows : Prop :=
  ∀ row ∈ ([(.jmpShort, "JMP"), (.jo, "JO"), (.jno, "JNO"), (.jb, "JB"), (.jnb, "JNB"), (.jz, "JZ"),
     (.jnz, "JNZ"), (.jbe, "JBE"), (.ja, "JA"), (.js, "JS"), (.jns, "JNS"), (.jp, "JP"), (.jnp, "JNP"),
     (.jl, "JL"), (.jnl, "JNL"), (.jle, "JLE"), (.jg, "JG"), (.loop, "LOOP"), (.loopz, "LOOPZ"),
     (.loopnz, "LOOPNZ"), (.jcxz, "JCXZ")] :
    List ((Byte → Instr) × String)),
  ∀ (lock : Bool) (disp : Byte) (s : State),
    exec (if lock then .lock (row.1 disp) else row.1 disp) s = .next (s.emit
      ((if lock then "LOCK " else "") ++ row.2 ++ " " ++
        (if 0 ≤ disp.toInt + (if lock then 3 else 2) then "$+" ++ dec (disp.toInt + (if lock then 3 else 2)).toNat
         else "$-" ++ dec (-(disp.toInt + (if lock then 3 else 2))).toNat))
      (s.cursor + (if lock then 3 else 2))) ∧
    -126 ≤ disp.toInt + 2 ∧ disp.toInt + 2 ≤ 129

/-- O43. Form REL16 (R150, R134). -/
def Obligations.NearBranchRows : Prop :=
  ∀ row ∈ ([(.callNear, "CALL"), (.jmpNear, "JMP")] :
    List ((Word → Instr) × String)),
  ∀ (lock : Bool) (disp : Word) (s : State),
    exec (if lock then .lock (row.1 disp) else row.1 disp) s = .next (s.emit
      ((if lock then "LOCK " else "") ++ row.2 ++ " " ++
        dec (((s.loadBase.toNat : Int) + ((s.cursor + (if lock then 4 else 3) : Nat) : Int) + disp.toInt) % 65536).toNat)
      (s.cursor + (if lock then 4 else 3)))

/-- O44. Form FARPTR (R151, R135). -/
def Obligations.FarPointerRows : Prop :=
  ∀ row ∈ ([(.callFar, "CALL"), (.jmpFar, "JMP")] :
    List ((Word → Word → Instr) × String)),
  ∀ (lock : Bool) (off sgm : Word) (s : State),
    exec (if lock then .lock (row.1 off sgm) else row.1 off sgm) s = .next (s.emit
      ((if lock then "LOCK " else "") ++ row.2 ++ " " ++ dec sgm.toNat ++ ":" ++ dec off.toNat)
      (s.cursor + (if lock then 1 else 0) + 5)) ∧
    (encode (row.1 off sgm)).tail = wordBytes off ++ wordBytes sgm

/-- O45. Forms IMM8 and IMM16 (R152, R153). -/
def Obligations.ImmediateOnlyRows : Prop :=
  ∀ (lock : Bool) (s : State),
    (∀ n : Byte, exec (if lock then .lock (.int n) else .int n) s = .next (s.emit
      ((if lock then "LOCK " else "") ++ "INT " ++ dec n.toNat) (s.cursor + (if lock then 1 else 0) + 2))) ∧
    (∀ n : Word, exec (if lock then .lock (.retImm n) else .retImm n) s = .next (s.emit
      ((if lock then "LOCK " else "") ++ "RET " ++ dec n.toNat) (s.cursor + (if lock then 1 else 0) + 3))) ∧
    (∀ n : Word, exec (if lock then .lock (.retfImm n) else .retfImm n) s = .next (s.emit
      ((if lock then "LOCK " else "") ++ "RETF " ++ dec n.toNat) (s.cursor + (if lock then 1 else 0) + 3)))

/-- O46. Forms NONE and AA (R158, R154). -/
def Obligations.BareRows : Prop :=
  ∀ (lock : Bool) (s : State),
    (∀ row ∈ ([(.xlat, "XLAT"), (.lahf, "LAHF"), (.sahf, "SAHF"), (.pushf, "PUSHF"), (.popf, "POPF"), (.aaa, "AAA"),
      (.daa, "DAA"), (.aas, "AAS"), (.das, "DAS"), (.cbw, "CBW"), (.cwd, "CWD"), (.ret, "RET"),
      (.retf, "RETF"), (.int3, "INT3"), (.into, "INTO"), (.iret, "IRET"), (.clc, "CLC"), (.cmc, "CMC"),
      (.stc, "STC"), (.cld, "CLD"), (.std, "STD"), (.cli, "CLI"), (.sti, "STI"), (.hlt, "HLT"),
      (.wait, "WAIT"), (.nop, "NOP")] : List (Instr × String)),
      exec (if lock then .lock row.1 else row.1) s = .next (s.emit
        ((if lock then "LOCK " else "") ++ row.2) (s.cursor + (if lock then 1 else 0) + 1))) ∧
    (∀ row ∈ ([(.aam, "AAM"), (.aad, "AAD")] : List (Instr × String)),
      exec (if lock then .lock row.1 else row.1) s = .next (s.emit
        ((if lock then "LOCK " else "") ++ row.2) (s.cursor + (if lock then 1 else 0) + 2)))

/-- O47. Forms PORT8 and PORTDX (R155, R156). -/
def Obligations.PortRows : Prop :=
  ∀ (lock : Bool) (w : Width) (s : State),
    (∀ p : Byte, exec (if lock then .lock (.inPort w p) else .inPort w p) s = .next (s.emit
      ((if lock then "LOCK " else "") ++ "IN " ++ accName w ++ ", " ++ dec p.toNat)
      (s.cursor + (if lock then 1 else 0) + 2))) ∧
    (∀ p : Byte, exec (if lock then .lock (.outPort w p) else .outPort w p) s = .next (s.emit
      ((if lock then "LOCK " else "") ++ "OUT " ++ dec p.toNat ++ ", " ++ accName w)
      (s.cursor + (if lock then 1 else 0) + 2))) ∧
    exec (if lock then .lock (.inDx w) else .inDx w) s = .next (s.emit
      ((if lock then "LOCK " else "") ++ "IN " ++ accName w ++ ", DX") (s.cursor + (if lock then 1 else 0) + 1)) ∧
    exec (if lock then .lock (.outDx w) else .outDx w) s = .next (s.emit
      ((if lock then "LOCK " else "") ++ "OUT DX, " ++ accName w) (s.cursor + (if lock then 1 else 0) + 1))

/-- O48. Form STR and the repeat prefixes (R157, R116). -/
def Obligations.StringRows : Prop :=
  ∀ row ∈ ([(.movs, "MOVS"), (.cmps, "CMPS"), (.scas, "SCAS"), (.lods, "LODS"), (.stos, "STOS")] :
    List ((Width → Instr) × String)),
  ∀ (lock : Bool) (w : Width) (s : State),
    exec (if lock then .lock (row.1 w) else row.1 w) s = .next (s.emit
      ((if lock then "LOCK " else "") ++ row.2 ++ (if w = .word then "W" else "B"))
      (s.cursor + (if lock then 1 else 0) + 1)) ∧
    exec (if lock then .lock (.rep (row.1 w)) else .rep (row.1 w)) s = .next (s.emit
      ((if lock then "LOCK " else "") ++ "REP " ++ row.2 ++ (if w = .word then "W" else "B"))
      (s.cursor + (if lock then 1 else 0) + 2)) ∧
    exec (if lock then .lock (.repne (row.1 w)) else .repne (row.1 w)) s = .next (s.emit
      ((if lock then "LOCK " else "") ++ "REPNE " ++ row.2 ++ (if w = .word then "W" else "B"))
      (s.cursor + (if lock then 1 else 0) + 2))

/-- O49. The four prefix rows; the texts with each kind of Body are in the statements of the forms. -/
def Obligations.PrefixedInstructionsComplete : Prop :=
  ∀ (body : Instr) (sr : Sreg) (s : State),
    (WellFormed (.lock body) → ∃ rest, exec (.lock body) s =
      .next (s.emit ("LOCK " ++ rest) (s.cursor + 1 + (encode body).length))) ∧
    (WellFormed (.seg sr body) → ∃ line, exec (.seg sr body) s =
      .next (s.emit line (s.cursor + 1 + (encode body).length))) ∧
    (WellFormed (.rep body) → ∃ rest, exec (.rep body) s =
      .next (s.emit ("REP " ++ rest) (s.cursor + 1 + (encode body).length))) ∧
    (WellFormed (.repne body) → ∃ rest, exec (.repne body) s =
      .next (s.emit ("REPNE " ++ rest) (s.cursor + 1 + (encode body).length)))

/-- O50. R14. -/
def Obligations.DecimalSpelling : Prop :=
  ∀ n : Nat, (dec n).toList ≠ [] ∧ (∀ c ∈ (dec n).toList, 48 ≤ c.toNat ∧ c.toNat ≤ 57) ∧
    ((dec n).toList.head? = some '0' → n = 0 ∧ (dec n).toList = ['0']) ∧
    (dec n).toList.foldl (fun v c => 10 * v + (c.toNat - 48)) 0 = n

/-- O51. R160 and R161, variant by variant. -/
def Obligations.OperandTexts : Prop :=
  (∀ n : String, (Operand.register n).text = n ∧ (Operand.literal n).text = n) ∧
  (∀ (q : Option Qual) (sg : Option Sreg), operandPre q sg =
    (match q with | none => "" | some .byte => "BYTE " | some .word => "WORD " | some .far => "FAR ") ++
    (match sg with | none => "" | some .es => "ES:" | some .cs => "CS:" | some .ss => "SS:" | some .ds => "DS:")) ∧
  (∀ (a : Word) (q : Option Qual) (sg : Option Sreg),
    (Operand.memoryDirect a sg q).text = operandPre q sg ++ "[" ++ dec a.toNat ++ "]") ∧
  (∀ (e : EaBase) (v : Int) (q : Option Qual) (sg : Option Sreg),
    (Operand.memoryIndexed e v false sg q).text = operandPre q sg ++ "[" ++ eaText e ++ "]" ∧
    (Operand.memoryIndexed e v true sg q).text = operandPre q sg ++ "[" ++ eaText e ++
      (if 0 ≤ v then " + " ++ dec v.toNat else " - " ++ dec (-v).toNat) ++ "]") ∧
  (∀ (v : Int) (k : Nat), (Operand.immediate v false k).text = dec v.toNat ∧
    (Operand.immediate v true k).text = if 0 ≤ v then dec v.toNat else "-" ++ dec (-v).toNat) ∧
  (∀ n : Int, (Operand.shortRel n).text = if 0 ≤ n then "$+" ++ dec n.toNat else "$-" ++ dec (-n).toNat) ∧
  (∀ t : Word, (Operand.nearAbs t).text = dec t.toNat) ∧
  (∀ sgm off : Word, (Operand.farPtr sgm off).text = dec sgm.toNat ++ ":" ++ dec off.toNat)

/-- O52. R70 to R73; entry 6 of EA is never used with mod = 00 (R73). -/
def Obligations.RegisterTables : Prop :=
  [0, 1, 2, 3, 4, 5, 6, 7].map (fun k : Nat => reg8 (BitVec.ofNat 3 k)) = ["AL", "CL", "DL", "BL", "AH", "CH", "DH", "BH"] ∧
  [0, 1, 2, 3, 4, 5, 6, 7].map (fun k : Nat => reg16 (BitVec.ofNat 3 k)) =
    ["AX", "CX", "DX", "BX", "SP", "BP", "SI", "DI"] ∧
  [0, 1, 2, 3].map (fun k : Nat => sregName (Sreg.ofBits (BitVec.ofNat 2 k))) = ["ES", "CS", "SS", "DS"] ∧
  [0, 1, 2, 3, 4, 5, 6, 7].map (fun k : Nat => eaText (EaBase.ofBits (BitVec.ofNat 3 k))) =
    ["BX + SI", "BX + DI", "BP + SI", "BP + DI", "SI", "DI", "BP", "BX"] ∧
  (∀ m : Byte, (ModRM.of m 0).mod = 0 → ∀ (c c' : Cursor) (x : Mem), readMem (ModRM.of m 0) c = .ok (x, c') →
    x ≠ .base .bp)

/-- O53. R127 (and the first sentences of R126). -/
def Obligations.SignedDisplacements : Prop :=
  ∀ (e : EaBase) (L : Latches),
    (∀ v : Byte, (memOperand (.disp8 e v) none { L with seg := none }).text =
      "[" ++ eaText e ++ (if v.toNat < 128 then " + " ++ dec v.toNat else " - " ++ dec (256 - v.toNat)) ++ "]") ∧
    (∀ v : Word, (memOperand (.disp16 e v) none { L with seg := none }).text =
      "[" ++ eaText e ++ (if v.toNat < 32768 then " + " ++ dec v.toNat else " - " ++ dec (65536 - v.toNat)) ++ "]") ∧
    (memOperand (.disp8 e 0) none { L with seg := none }).text = "[" ++ eaText e ++ " + 0]" ∧
    (memOperand (.disp16 e 0) none { L with seg := none }).text = "[" ++ eaText e ++ " + 0]" ∧
    (memOperand (.base e) none { L with seg := none }).text = "[" ++ eaText e ++ "]"

/-- O54. R33 and R134. -/
def Obligations.InstructionPointer : Prop :=
  ∀ (s : State) (o : Nat) (d : Word) (L : Latches),
    (s.ip o).toNat = (s.loadBase.toNat + o) % 65536 ∧
    (L.loadBase = s.loadBase → ((nearTarget d L).toNat : Int) = (((s.ip L.pos).toNat : Int) + d.toInt) % 65536)

/-- O55. R168 but for its clause on trailing spaces, which a header line can break (log 20). The invariant gives that each line is ASCII without line breaks (R27). -/
def Obligations.ListingSerialisation : Prop :=
  ∀ s : State, Inv s →
    (∀ c ∈ s.serialised.toList, c.toNat < 128 ∧ c ≠ '\r') ∧
    s.serialised.toList.count '\n' = s.listing.length ∧
    s.serialised.toList.getLast? = some '\n' ∧
    s.serialised.toList.splitOn '\n' = s.listing.map String.toList ++ [[]]

/-- O56. R170: decoding is a function of the buffer, the load base and the offset; R23: nothing else survives a step. -/
def Obligations.SameInputsSameStep : Prop :=
  ∀ s u : State, s.buf = u.buf → s.loadBase = u.loadBase → s.cursor = u.cursor → s.status = u.status → s.error = u.error →
    (∀ t, step s = .next t → ∃ v added, step u = .next v ∧ v.cursor = t.cursor ∧ v.status = t.status ∧
      v.error = t.error ∧ t.listing = s.listing ++ added ∧ v.listing = u.listing ++ added) ∧
    (∀ r, step s = .fault r → step u = .fault r)

/-- O57. R171. -/
def Obligations.TerminationBound : Prop :=
  (∀ s : State, s.cursor ≤ s.len →
    (afterSteps (s.len - s.cursor + 1) s).status = .done ∨ (afterSteps (s.len - s.cursor + 1) s).status = .error) ∧
  (∀ (buf : List Byte) (name : String) (base : Word),
    let t := afterSteps (buf.length + 1) (State.resetWith buf name base)
    t.status = .done ∨ t.status = .error)

/-- O58. "exactly one line per decoded instruction, in source order" (R27). -/
def Obligations.ProgramListing : Prop :=
  ∀ (is : List Instr) (name : String) (base : Word), (∀ i ∈ is, WellFormed i) →
    let s := State.resetWith (programBytes is) name base
    let t := afterSteps (is.length + 1) s
    t.status = .done ∧ t.cursor = s.len ∧ t.error = none ∧
    t.listing = [headerLine name, directiveLine] ++ programLines s is ∧ (programLines s is).length = is.length

/-- O59. R171: Done comes exactly when the instruction boundaries end precisely at Len. -/
def Obligations.DoneExactlyForPrograms : Prop :=
  ∀ (buf : List Byte) (name : String) (base : Word),
    let t := afterSteps (buf.length + 1) (State.resetWith buf name base)
    (t.status = .done ↔ ∃ is : List Instr, (∀ i ∈ is, WellFormed i) ∧ buf = programBytes is) ∧
    (t.status ≠ .done → t.status = .error)

/-- O60. "The error is precise: every instruction before instr_start is fully in the listing, and nothing of the failing instruction is" (R387). -/
def Obligations.ErrorIsPrecise : Prop :=
  ∀ (buf : List Byte) (name : String) (base : Word),
    let s := State.resetWith buf name base
    let t := afterSteps (buf.length + 1) s
    t.status = .error →
    ∃ (is : List Instr) (e : ErrorRecord), (∀ i ∈ is, WellFormed i) ∧ buf.take t.cursor = programBytes is ∧
      t.error = some e ∧ e.instrStart = t.cursor ∧ decodeOne buf t.cursor = .error e ∧
      t.listing = [headerLine name, directiveLine] ++ programLines s is
end

