-- ==== Sys2Proof/Laws/Decode.lean ====
section
/-! SUPPORT. One lemma per reader and phase of the decoder: what it answers on given bytes, and what it can answer. -/

namespace Sys2Proof

open Machine

/-! ## Fields and their bits -/

@[simp] theorem EaBase.ofBits_bits (e : EaBase) : EaBase.ofBits e.bits = e := by cases e <;> rfl

@[simp] theorem EaBase.bits_ofBits (r : BitVec 3) : (EaBase.ofBits r).bits = r := by
  revert r; decide

@[simp] theorem Sreg.ofBits_bits (sr : Sreg) : Sreg.ofBits sr.bits = sr := by cases sr <;> rfl

@[simp] theorem Sreg.bits_ofBits (r : BitVec 2) : (Sreg.ofBits r).bits = r := by
  revert r; decide

theorem EaBase.bits_eq_six (e : EaBase) : e.bits = 6 ↔ e = .bp := by cases e <;> decide

/-- The fields of a ModRM byte are those it was made from (R69). -/
@[simp] theorem ModRM.of_modRMByte (mod : BitVec 2) (reg rm : BitVec 3) (off : Nat) :
    ModRM.of (modRMByte mod reg rm) off = ⟨mod, reg, rm, modRMByte mod reg rm, off⟩ := by
  have h : ∀ (mod : BitVec 2) (reg rm : BitVec 3),
      (modRMByte mod reg rm).extractLsb' 6 2 = mod ∧ (modRMByte mod reg rm).extractLsb' 3 3 = reg ∧
      (modRMByte mod reg rm).extractLsb' 0 3 = rm := by decide
  obtain ⟨h1, h2, h3⟩ := h mod reg rm
  simp only [ModRM.of, h1, h2, h3]

/-- A ModRM byte is made from its fields (R69). -/
theorem modRMByte_of (m : Byte) (off : Nat) :
    modRMByte (ModRM.of m off).mod (ModRM.of m off).reg (ModRM.of m off).rm = m := by
  have h : ∀ m : Byte, modRMByte (m.extractLsb' 6 2) (m.extractLsb' 3 3) (m.extractLsb' 0 3) = m := by decide
  exact h m

/-- A word is made from its two bytes, low byte first (R49, R50). -/
@[simp] theorem wordOf_bytes (v : Word) : wordOf (v.extractLsb' 0 8) (v.extractLsb' 8 8) = v := by
  apply BitVec.eq_of_getLsbD_eq
  intro i hi
  simp only [wordOf, BitVec.getLsbD_append, BitVec.getLsbD_extractLsb']
  by_cases h : i < 8
  · simp [h]
  · have h1 : i - 8 < 8 := by omega
    have h2 : 8 + (i - 8) = i := by omega
    simp [h, h1, h2]

theorem wordOf_low (lo hi : Byte) : (wordOf lo hi).extractLsb' 0 8 = lo := by
  apply BitVec.eq_of_getLsbD_eq
  intro i h
  simp only [wordOf, BitVec.getLsbD_append, BitVec.getLsbD_extractLsb']
  simp [h]

theorem wordOf_high (lo hi : Byte) : (wordOf lo hi).extractLsb' 8 8 = hi := by
  apply BitVec.eq_of_getLsbD_eq
  intro i h
  simp only [wordOf, BitVec.getLsbD_append, BitVec.getLsbD_extractLsb']
  simp [h]

@[simp] theorem wordBytes_wordOf (lo hi : Byte) : wordBytes (wordOf lo hi) = [lo, hi] := by
  simp only [wordBytes, wordOf_low, wordOf_high]

/-! ## The cursor (R48, R49) -/

@[simp] theorem readByte_cons (st p : Nat) (b : Byte) (r : List Byte) :
    Cursor.readByte ⟨st, p, b :: r⟩ = .ok (b, ⟨st, p + 1, r⟩) := rfl

@[simp] theorem readByte_nil (st p : Nat) : Cursor.readByte ⟨st, p, []⟩ = .error (endOfStream st p 1) := rfl

@[simp] theorem readWord_cons (st p : Nat) (lo hi : Byte) (r : List Byte) :
    Cursor.readWord ⟨st, p, lo :: hi :: r⟩ = .ok (wordOf lo hi, ⟨st, p + 2, r⟩) := rfl

@[simp] theorem readWord_bytes (st p : Nat) (v : Word) (r : List Byte) :
    Cursor.readWord ⟨st, p, wordBytes v ++ r⟩ = .ok (v, ⟨st, p + 2, r⟩) := by
  simp [wordBytes]

/-- What a successful byte read says of the cursor. -/
theorem readByte_ok {c c' : Cursor} {b : Byte} (h : c.readByte = .ok (b, c')) :
    c = ⟨c'.start, c'.pos - 1, b :: c'.rest⟩ ∧ 1 ≤ c'.pos := by
  obtain ⟨st, p, r⟩ := c
  cases r with
  | nil => simp at h
  | cons x r => simp only [readByte_cons, Except.ok.injEq, Prod.mk.injEq] at h; obtain ⟨rfl, rfl⟩ := h; simp

/-- What a successful word read says of the cursor. -/
theorem readWord_ok {c c' : Cursor} {v : Word} (h : c.readWord = .ok (v, c')) :
    c = ⟨c'.start, c'.pos - 2, wordBytes v ++ c'.rest⟩ ∧ 2 ≤ c'.pos := by
  obtain ⟨st, p, r⟩ := c
  match r, h with
  | lo :: hi :: r, h =>
    simp only [readWord_cons, Except.ok.injEq, Prod.mk.injEq] at h
    obtain ⟨rfl, rfl⟩ := h; simp

/-- What a failing byte read answers. -/
theorem readByte_error {c : Cursor} {e : ErrorRecord} (h : c.readByte = .error e) :
    c.rest = [] ∧ e = endOfStream c.start c.pos 1 := by
  obtain ⟨st, p, r⟩ := c
  cases r with
  | nil => simpa using h.symm
  | cons x r => simp at h

/-- What a failing word read answers. -/
theorem readWord_error {c : Cursor} {e : ErrorRecord} (h : c.readWord = .error e) :
    c.rest.length < 2 ∧ e = endOfStream c.start c.pos (2 - c.rest.length) := by
  obtain ⟨st, p, r⟩ := c
  match r, h with
  | [], h => simpa [Cursor.readWord] using h.symm
  | [x], h => simpa [Cursor.readWord] using h.symm

/-! ## The prefix constructors: later proofs need not unfold a definition over all of `Instr` -/

@[simp] theorem Instr.encode_lock (i : Instr) : (Instr.lock i).encode = 0xF0#8 :: i.encode := rfl
@[simp] theorem Instr.encode_seg (sr : Sreg) (i : Instr) :
    (Instr.seg sr i).encode = (0b001#3 ++ sr.bits ++ 0b110#3) :: i.encode := rfl
@[simp] theorem Instr.encode_rep (i : Instr) : (Instr.rep i).encode = 0xF3#8 :: i.encode := rfl
@[simp] theorem Instr.encode_repne (i : Instr) : (Instr.repne i).encode = 0xF2#8 :: i.encode := rfl
@[simp] theorem Instr.length_lock (i : Instr) : (Instr.lock i).length = 1 + i.length := rfl
@[simp] theorem Instr.length_seg (sr : Sreg) (i : Instr) : (Instr.seg sr i).length = 1 + i.length := rfl
@[simp] theorem Instr.length_rep (i : Instr) : (Instr.rep i).length = 1 + i.length := rfl
@[simp] theorem Instr.length_repne (i : Instr) : (Instr.repne i).length = 1 + i.length := rfl
@[simp] theorem Instr.wf_lock (i : Instr) : (Instr.lock i).wf = (i.wf && !i.isLock) := rfl
@[simp] theorem Instr.wf_seg (sr : Sreg) (i : Instr) : (Instr.seg sr i).wf = (i.wf && !i.isPrefixed && i.hasMem) := rfl
@[simp] theorem Instr.wf_rep (i : Instr) : (Instr.rep i).wf = (i.wf && i.isStringOp) := rfl
@[simp] theorem Instr.wf_repne (i : Instr) : (Instr.repne i).wf = (i.wf && i.isStringOp) := rfl
@[simp] theorem Instr.isLock_lock (i : Instr) : (Instr.lock i).isLock = true := rfl
@[simp] theorem Instr.isLock_seg (sr : Sreg) (i : Instr) : (Instr.seg sr i).isLock = false := rfl
@[simp] theorem Instr.isLock_rep (i : Instr) : (Instr.rep i).isLock = false := rfl
@[simp] theorem Instr.isLock_repne (i : Instr) : (Instr.repne i).isLock = false := rfl

/-- An instruction without a prefix does not begin with LOCK. -/
theorem Instr.isLock_of_plain (i : Instr) (h : i.isPrefixed = false) : i.isLock = false := by
  cases i <;> first | rfl | cases h

/-- A string instruction has no prefix. -/
theorem Instr.isPrefixed_of_string (i : Instr) (h : i.isStringOp = true) : i.isPrefixed = false := by
  cases i <;> first | rfl | cases h

/-! ## Reading back what was written -/

/-- The eight values of a register field. -/
theorem regField_cases (r : RegField) : r = 0 ∨ r = 1 ∨ r = 2 ∨ r = 3 ∨ r = 4 ∨ r = 5 ∨ r = 6 ∨ r = 7 := by
  revert r; decide

/-- The ModRM byte and displacement of a memory operand read back (R124). -/
theorem readModRM_mem (m : Mem) (h : m.wf = true) (reg : BitVec 3) (st p : Nat) (tail : List Byte) :
    ∃ M c, Cursor.readModRM ⟨st, p, m.bytes reg ++ tail⟩ = .ok (M, c) ∧ M.reg = reg ∧ M.isReg = false ∧
      c.start = st ∧
      readMem M c = .ok (m, ⟨st, p + 1 + m.dispLen, tail⟩) := by
  cases m with
  | direct a => exact ⟨_, _, rfl, by simp, by simp [ModRM.isReg], rfl, by simp [readMem, Mem.dispLen, bind, Except.bind, pure, Except.pure]⟩
  | base e =>
    refine ⟨_, _, rfl, by simp, by simp [ModRM.isReg], rfl, ?_⟩
    have : e.bits ≠ 6#3 := by
      intro h6
      have : e = .bp := (EaBase.bits_eq_six e).1 h6
      subst this; simp [Mem.wf] at h
    simp [readMem, if_neg this, Mem.dispLen]
  | disp8 e v => exact ⟨_, _, rfl, by simp, by simp [ModRM.isReg], rfl, by simp [readMem, Mem.dispLen, bind, Except.bind, pure, Except.pure]⟩
  | disp16 e v => exact ⟨_, _, rfl, by simp, by simp [ModRM.isReg], rfl, by simp [readMem, Mem.dispLen, bind, Except.bind, pure, Except.pure]⟩

/-- The ModRM byte and displacement of an r/m operand read back (R124). -/
theorem readModRM_rm (x : Rm) (h : x.wf = true) (reg : BitVec 3) (st p : Nat) (tail : List Byte) :
    ∃ M c, Cursor.readModRM ⟨st, p, x.bytes reg ++ tail⟩ = .ok (M, c) ∧ M.reg = reg ∧ M.isReg = !x.isMem ∧
      c.start = st ∧
      readRm M c = .ok (x, ⟨st, p + 1 + x.dispLen, tail⟩) := by
  cases x with
  | reg r => exact ⟨_, _, rfl, by simp, by simp [ModRM.isReg, Rm.isMem], rfl, by simp [readRm, Rm.dispLen, ModRM.isReg]⟩
  | mem m =>
    obtain ⟨M, c, h1, h2, h3, h4, h5⟩ := readModRM_mem m h reg st p tail
    exact ⟨M, c, h1, h2, by simpa [Rm.isMem] using h3, h4, by simp [readRm, h3, h5, Rm.dispLen, bind, Except.bind, pure, Except.pure]⟩

/-- The byte behind a memory operand's opcode holds the reg field in bits 5:3 (R69). -/
theorem Mem.reg_bytes (m : Mem) (k : BitVec 3) (l : List Byte) (off : Nat) :
    (ModRM.of ((m.bytes k ++ l).headD 0) off).reg = k := by
  cases m <;> simp [Mem.bytes]

/-- The byte behind an r/m operand's opcode holds the reg field in bits 5:3 (R69). -/
theorem Rm.reg_bytes (x : Rm) (k : BitVec 3) (l : List Byte) (off : Nat) :
    (ModRM.of ((x.bytes k ++ l).headD 0) off).reg = k := by
  cases x with
  | reg r => simp [Rm.bytes]
  | mem m => exact m.reg_bytes k l off

/-- `ImmW` reads its bytes back (R130). -/
theorem readImmW_bytes (im : ImmW) (st p : Nat) (tail : List Byte) :
    readImmW im.width ⟨st, p, im.bytes ++ tail⟩ = .ok (im, ⟨st, p + im.dataLen, tail⟩) := by
  cases im <;> simp [readImmW, ImmW.width, ImmW.bytes, ImmW.dataLen, bind, Except.bind, pure, Except.pure]

/-- The bit `s` an immediate of GRP1 was read by (R129). -/
def ImmSW.sBit : ImmSW → Bool
  | .imm8 s _ => s
  | .sext8 _ => true
  | .imm16 _ => false

/-- `ImmSW` reads its bytes back (R129). -/
theorem readImmSW_bytes (im : ImmSW) (st p : Nat) (tail : List Byte) :
    readImmSW im.sBit im.width ⟨st, p, im.bytes ++ tail⟩ = .ok (im, ⟨st, p + im.dataLen, tail⟩) := by
  cases im <;> simp [readImmSW, ImmSW.width, ImmSW.sBit, ImmSW.bytes, ImmSW.dataLen, bind, Except.bind, pure, Except.pure]

/-- `SegCheck` passes where a latch comes with a memory operand (R122). -/
theorem segCheck_ok (c : Cursor) (sg : Option SegLatch) (hm : Bool) (h : sg.isSome = true → hm = true) :
    segCheck c sg hm = .ok () := by
  cases sg with
  | none => rfl
  | some l => simp [segCheck, h rfl]

/-! ## What a reader reads -/

/-- From `c` to `c'` exactly the bytes `l` are read. -/
def Cursor.Reads (c : Cursor) (l : List Byte) (c' : Cursor) : Prop :=
  c.rest = l ++ c'.rest ∧ c'.pos = c.pos + l.length ∧ c'.start = c.start

theorem Cursor.Reads.trans {a b c : Cursor} {l l'} (h : Cursor.Reads a l b) (h' : Cursor.Reads b l' c) : Cursor.Reads a (l ++ l') c := by
  obtain ⟨h1, h2, h3⟩ := h; obtain ⟨h4, h5, h6⟩ := h'
  exact ⟨by rw [h1, h4, List.append_assoc], by rw [h5, h2, List.length_append]; omega, by rw [h6, h3]⟩

theorem Cursor.Reads.refl (c) : Cursor.Reads c [] c := ⟨rfl, rfl, rfl⟩

/-- A byte read reads one byte (R48). -/
theorem readByte_reads {c c' : Cursor} {b} (h : c.readByte = .ok (b, c')) : Cursor.Reads c [b] c' := by
  obtain ⟨st, p, r⟩ := c
  cases r with
  | nil => simp at h
  | cons x r => simp only [readByte_cons, Except.ok.injEq, Prod.mk.injEq] at h; obtain ⟨rfl, rfl⟩ := h; exact ⟨rfl, rfl, rfl⟩

/-- A word read reads the word's two bytes (R49). -/
theorem readWord_reads {c c' : Cursor} {v} (h : c.readWord = .ok (v, c')) : Cursor.Reads c (wordBytes v) c' := by
  obtain ⟨st, p, r⟩ := c
  match r, h with
  | lo :: hi :: r, h =>
    simp only [readWord_cons, Except.ok.injEq, Prod.mk.injEq] at h
    obtain ⟨rfl, rfl⟩ := h; exact ⟨by simp, by simp, rfl⟩

/-- A sequence answers only if each part does. -/
theorem bind_eq_ok {α β : Type} {x : Except ErrorRecord α} {f : α → Except ErrorRecord β} {b : β} (h : (x >>= f) = .ok b) : ∃ a, x = .ok a ∧ f a = .ok b := by
  cases x with
  | error e => cases h
  | ok a => exact ⟨a, rfl, h⟩

/-- What a ModRM read reads (R120). -/
theorem readModRM_reads {c c' : Cursor} {M} (h : c.readModRM = .ok (M, c')) : ∃ m, Cursor.Reads c [m] c' ∧ M = ModRM.of m c.pos := by
  obtain ⟨⟨m, c1⟩, h1, h2⟩ := bind_eq_ok h
  cases h2; exact ⟨m, readByte_reads h1, rfl⟩

/-- What `DecodeRM` reads for a memory operand, and that the operand is well formed (R124). -/
theorem readMem_reads {c c' : Cursor} {byte off m} (h : readMem (ModRM.of byte off) c = .ok (m, c')) (hm : (ModRM.of byte off).isReg = false) :
    m.wf = true ∧ ∃ l, Cursor.Reads c l c' ∧ m.bytes (ModRM.of byte off).reg = byte :: l ∧ m.dispLen = l.length := by
  have hb := modRMByte_of byte off
  generalize ModRM.of byte off = M at *
  unfold readMem at h
  split at h
  · rename_i h0
    split at h
    · rename_i h6
      obtain ⟨⟨a, c1⟩, h1, h2⟩ := bind_eq_ok h; cases h2
      exact ⟨rfl, _, readWord_reads h1, by simp only [Mem.bytes, ← hb, h0, h6], rfl⟩
    · rename_i h6
      cases h
      refine ⟨?_, _, .refl _, by simp only [Mem.bytes, ← hb, h0, EaBase.bits_ofBits], rfl⟩
      cases he : EaBase.ofBits M.rm <;> first | rfl | skip
      have := congrArg EaBase.bits he; simp only [EaBase.bits_ofBits] at this; exact absurd this h6
  · rename_i h0
    split at h
    · rename_i h1
      obtain ⟨⟨a, c1⟩, h2, h3⟩ := bind_eq_ok h; cases h3
      exact ⟨rfl, _, readByte_reads h2, by simp only [Mem.bytes, ← hb, h1, EaBase.bits_ofBits], rfl⟩
    · rename_i h1
      obtain ⟨⟨a, c1⟩, h2, h3⟩ := bind_eq_ok h; cases h3
      have h4 : M.mod = 2 := by
        have h5 : M.mod ≠ 3 := by intro h5; simp [ModRM.isReg, h5] at hm
        generalize M.mod = k at *; clear * - h0 h1 h5; revert k; decide
      exact ⟨rfl, _, readWord_reads h2, by simp only [Mem.bytes, ← hb, h4, EaBase.bits_ofBits], rfl⟩

/-- What `DecodeRM` reads (R124). -/
theorem readRm_reads {c c' : Cursor} {byte off x} (h : readRm (ModRM.of byte off) c = .ok (x, c')) :
    x.wf = true ∧ x.isMem = !(ModRM.of byte off).isReg ∧ ∃ l, Cursor.Reads c l c' ∧ x.bytes (ModRM.of byte off).reg = byte :: l ∧ x.dispLen = l.length := by
  unfold readRm at h
  split at h
  · rename_i h0
    cases h
    refine ⟨rfl, by simp [Rm.isMem, h0], [], .refl _, ?_, rfl⟩
    have hb := modRMByte_of byte off
    generalize ModRM.of byte off = M at *
    simp only [ModRM.isReg, beq_iff_eq] at h0
    simp only [Rm.bytes, ← hb, h0]
  · rename_i h0
    obtain ⟨⟨m, c1⟩, h1, h2⟩ := bind_eq_ok h; cases h2
    have ⟨a, l, b⟩ := readMem_reads h1 (by simpa using h0)
    exact ⟨a, by simp only [Rm.isMem, h0]; rfl, l, b⟩

/-- What `ImmW` reads (R130). -/
theorem readImmW_reads {w} {c c' : Cursor} {im} (h : readImmW w c = .ok (im, c')) : im.width = w ∧ Cursor.Reads c im.bytes c' ∧ im.dataLen = im.bytes.length := by
  cases w <;> obtain ⟨⟨v, c1⟩, h1, h2⟩ := bind_eq_ok h <;> cases h2
  · exact ⟨rfl, readByte_reads h1, rfl⟩
  · exact ⟨rfl, readWord_reads h1, rfl⟩

/-- What `ImmSW` reads (R129). -/
theorem readImmSW_reads {s w} {c c' : Cursor} {im} (h : readImmSW s w c = .ok (im, c')) : im.width = w ∧ im.sBit = s ∧ Cursor.Reads c im.bytes c' ∧ im.dataLen = im.bytes.length := by
  cases w
  · obtain ⟨⟨v, c1⟩, h1, h2⟩ := bind_eq_ok h; cases h2
    exact ⟨rfl, rfl, readByte_reads h1, rfl⟩
  · cases s
    · obtain ⟨⟨v, c1⟩, h1, h2⟩ := bind_eq_ok h; cases h2
      exact ⟨rfl, rfl, readWord_reads h1, rfl⟩
    · obtain ⟨⟨v, c1⟩, h1, h2⟩ := bind_eq_ok h; cases h2
      exact ⟨rfl, rfl, readByte_reads h1, rfl⟩

/-- Where `SegCheck` passes a latch, the operand is memory (R122). -/
theorem segCheck_inv {c : Cursor} {sg hm u} (h : segCheck c sg hm = .ok u) : sg.isSome = true → hm = true := by
  cases sg <;> simp [segCheck] at h ⊢
  exact h

/-- A located read reads one byte. -/
theorem readLocated_reads {c c' : Cursor} {x : Located} (h : c.readLocated = .ok (x, c')) : Cursor.Reads c [x.byte] c' ∧ x.off = c.pos := by
  obtain ⟨⟨b, c1⟩, h1, h2⟩ := bind_eq_ok h; cases h2; exact ⟨readByte_reads h1, rfl⟩

/-- What the LOCK part reads (R113). -/
theorem lockPhase_reads {c c' l x} (h : lockPhase c = .ok ((l, x), c')) : Cursor.Reads c ((if l then [0xF0#8] else []) ++ [x.byte]) c' ∧ x.byte ≠ 0xF0 := by
  obtain ⟨⟨y, c1⟩, h1, h⟩ := bind_eq_ok h
  obtain ⟨h1, -⟩ := readLocated_reads h1
  simp only at h
  split at h
  · rename_i h0
    obtain ⟨⟨z, c2⟩, h2, h⟩ := bind_eq_ok h
    obtain ⟨h2, -⟩ := readLocated_reads h2
    simp only at h
    split at h
    · cases h
    · rename_i hz; cases h
      refine ⟨?_, hz⟩
      rw [h0] at h1
      exact h1.trans h2
  · rename_i h0; cases h; exact ⟨h1, h0⟩

/-- What the segment part reads (R113). -/
theorem segPhase_reads {x : Located} {c c' sg y} (h : segPhase x c = .ok ((sg, y), c')) :
    (sg = none ∧ y = x ∧ c' = c ∧ isSegByte x.byte = false) ∨
    (∃ l, sg = some l ∧ x.byte = (0b001#3 ++ l.reg.bits ++ 0b110#3) ∧ Cursor.Reads c [y.byte] c' ∧ isPrefixByte y.byte = false) := by
  unfold segPhase at h
  split at h
  · rename_i h0
    obtain ⟨⟨z, c1⟩, h1, h⟩ := bind_eq_ok h
    obtain ⟨h1, -⟩ := readLocated_reads h1
    simp only at h
    split at h
    · cases h
    · rename_i hz; cases h
      right
      have key : ∀ b, isSegByte b = true → b = (0b001#3 ++ (fieldSr b).bits ++ 0b110#3) := by decide
      exact ⟨_, rfl, key _ h0, h1, by simpa using hz⟩
  · rename_i h0; cases h; left; exact ⟨rfl, rfl, rfl, by simpa using h0⟩

/-- What the repeat part reads (R113). -/
theorem repPhase_reads {x : Located} {c c' rp y} (h : repPhase x c = .ok ((rp, y), c')) :
    (rp = none ∧ y = x ∧ c' = c ∧ isRepByte x.byte = false) ∨
    (∃ k, rp = some k ∧ x.byte = (match k with | .rep => 0xF3#8 | .repne => 0xF2#8) ∧ Cursor.Reads c [y.byte] c' ∧ isStringByte y.byte = true ∧ isPrefixByte y.byte = false) := by
  unfold repPhase at h
  split at h
  · rename_i h0
    obtain ⟨⟨z, c1⟩, h1, h⟩ := bind_eq_ok h
    obtain ⟨h1, -⟩ := readLocated_reads h1
    simp only at h
    split at h
    · rename_i hz; cases h
      right
      have key : ∀ b, isRepByte b = true → b = (match fieldZ b with | .rep => 0xF3#8 | .repne => 0xF2#8) := by decide
      have key2 : ∀ b, isStringByte b = true → isPrefixByte b = false := by decide
      exact ⟨_, rfl, key _ h0, h1, hz, key2 _ hz⟩
    · cases h
  · rename_i h0; cases h; left; exact ⟨rfl, rfl, rfl, by simpa using h0⟩

end Sys2Proof
end

