-- ==== Sys2Proof/Laws/Dispatch.lean ====
section
/-! SUPPORT. What each entry of the dispatch table makes of an opcode byte it takes: the constructor it selects encodes to that
byte and the bytes the routine reads, so that what a routine answers is the instruction whose bytes it has read (R78, R169). -/

namespace Sys2Proof

open Machine

/-- Instruction `i` is made from opcode byte `b` and the bytes `r`: its encoding, its length, and its checks. -/
def Made (b : Byte) (i : Instr) (r : List Byte) (len : Nat) (wf hm : Bool) : Prop :=
  i.encode = b :: r ∧ i.length = len ∧ i.wf = wf ∧ i.hasMem = hm ∧ i.isPrefixed = false

/-- What a form of shape RegMemToFromReg makes, with `k` in the ModRM reg field. -/
def RegMemForm.Made (b : Byte) (k : BitVec 3) : RegMemForm → Prop
  | .rmRegD mk => ∀ x, Sys2Proof.Made b (mk (fieldD b) (fieldW b) k x) (x.bytes k) (2 + x.dispLen) x.wf x.isMem
  | .rmReg mk => ∀ x, Sys2Proof.Made b (mk (fieldW b) k x) (x.bytes k) (2 + x.dispLen) x.wf x.isMem
  | .regMem mk => ∀ m : Mem, Sys2Proof.Made b (mk k m) (m.bytes k) (2 + m.dispLen) m.wf true
  | .rmSreg mk => ∀ sr x, k = 0b0#1 ++ sr.bits → Sys2Proof.Made b (mk sr x) (x.bytes k) (2 + x.dispLen) x.wf x.isMem
  | .rm mk => ∀ x, Sys2Proof.Made b (mk (fieldW b) x) (x.bytes k) (2 + x.dispLen) x.wf x.isMem
  | .rm16 mk => ∀ x, Sys2Proof.Made b (mk x) (x.bytes k) (2 + x.dispLen) x.wf x.isMem
  | .mem16 mk => ∀ m : Mem, Sys2Proof.Made b (mk m) (m.bytes k) (2 + m.dispLen) m.wf true
  | .shift mk => ∀ x, Sys2Proof.Made b (mk (fieldV b) (fieldW b) x) (x.bytes k) (2 + x.dispLen) x.wf x.isMem

/-- What a row of a group makes, with `k` in the ModRM reg field. -/
def GroupRow.Made (b : Byte) (k : BitVec 3) : GroupRow → Prop
  | .regMemToFromReg f => f.Made b k
  | .immediateToRegMem (.rmImmSW mk) => ∀ x im, im.width = fieldW b → im.sBit = fieldS b →
    Sys2Proof.Made b (mk x im) (x.bytes k ++ im.bytes) (2 + x.dispLen + im.dataLen) x.wf x.isMem
  | .immediateToRegMem (.rmImmW mk) => ∀ x im, im.width = fieldW b →
    Sys2Proof.Made b (mk x im) (x.bytes k ++ im.bytes) (2 + x.dispLen + im.dataLen) x.wf x.isMem

/-- What a dispatch target makes from opcode byte `b`. -/
def Target.Made (b : Byte) : Target → Prop
  | .refuse => False
  | .prefixByte _ => isPrefixByte b = true
  | .group g => ∀ k row, groupTable g k = some row → row.Made b k
  | .regMemToFromReg f => ∀ k, f.Made b k
  | .immediateToAccumulator (.accImm mk) =>
    ∀ im, im.width = fieldW b → Sys2Proof.Made b (mk im) im.bytes (1 + im.dataLen) true false
  | .immediateToAccumulator (.accMem mk) => ∀ a, Sys2Proof.Made b (mk (fieldW b) a) (wordBytes a) 3 true true
  | .immediateToAccumulator (.port8 mk) => ∀ v, Sys2Proof.Made b (mk (fieldW b) v) [v] 2 true false
  | .immediateToRegister mk => match fieldRegImmW b with
    | .byte => ∀ v, Sys2Proof.Made b (mk (.r8 (fieldR b) v)) [v] 2 true false
    | .word => ∀ v, Sys2Proof.Made b (mk (.r16 (fieldR b) v)) (wordBytes v) 3 true false
  | .shortJump mk => ∀ v, Sys2Proof.Made b (mk v) [v] 2 true false
  | .nearProcLabel mk => ∀ v, Sys2Proof.Made b (mk v) (wordBytes v) 3 true false
  | .farProcLabel mk => ∀ u v, Sys2Proof.Made b (mk u v) (wordBytes u ++ wordBytes v) 5 true false
  | .registerOnly mk => Sys2Proof.Made b (mk (fieldR b)) [] 1 true false
  | .segmentRegisterOnly mk => Sys2Proof.Made b (mk (fieldSr b)) [] 1 true false
  | .noOperand (.portDx mk) => Sys2Proof.Made b (mk (fieldW b)) [] 1 true false
  | .noOperand (.str mk) => Sys2Proof.Made b (mk (fieldW b)) [] 1 true false
  | .noOperand (.bare i) => Sys2Proof.Made b i [] 1 true false
  | .other (.imm8 mk) => ∀ v, Sys2Proof.Made b (mk v) [v] 2 true false
  | .other (.imm16 mk) => ∀ v, Sys2Proof.Made b (mk v) (wordBytes v) 3 true false
  | .other (.aa i) => Sys2Proof.Made b i [0x0A] 2 true false

/-- The entry is right at each byte it takes. 0x90 and 0x0F, which earlier entries take from two entries (R82, R80), are
left out. -/
def Entry.Made (e : Entry) : Prop :=
  ∀ b : Byte, e.hits b = true → b ≠ 0x90 → b ≠ 0x0F → e.target ≠ .refuse → e.target.Made b

/-! ## A byte is its opcode bits and its fields (R68) -/

theorem hits8 {p b : Byte} {t : Target} (h : (Entry.mk p 0xFF t).hits b = true) : b = p := by
  have key : ∀ b : Byte, b &&& 0xFF = b := by decide
  have h1 : b &&& 0xFF = p := by simpa [Entry.hits] using h
  exact (key b).symm.trans h1

theorem hits7 {p b : Byte} {t : Target} (op : BitVec 7) (hp : p = (op ++ 0#1 : BitVec 8))
    (h : (Entry.mk p 0xFE t).hits b = true) : b = (op ++ (fieldW b).bits : BitVec 8) := by
  have k1 : ∀ b : Byte, b &&& 0xFE = (b.extractLsb' 1 7 ++ 0#1 : BitVec 8) ∧
      b = (b.extractLsb' 1 7 ++ (fieldW b).bits : BitVec 8) := by decide
  have k2 : ∀ x : BitVec 7, (x ++ 0#1 : BitVec 8).extractLsb' 1 7 = x := by decide
  have h1 : b &&& 0xFE = p := by simpa [Entry.hits] using h
  have h2 := congrArg (BitVec.extractLsb' 1 7) ((k1 b).1.symm.trans (h1.trans hp))
  rw [k2, k2] at h2
  have h3 := (k1 b).2
  rw [h2] at h3
  exact h3

theorem hits6 {p b : Byte} {t : Target} (op : BitVec 6) (hp : p = (op ++ 0#2 : BitVec 8))
    (h : (Entry.mk p 0xFC t).hits b = true) : b = (op ++ b.extractLsb' 0 2 : BitVec 8) := by
  have k1 : ∀ b : Byte, b &&& 0xFC = (b.extractLsb' 2 6 ++ 0#2 : BitVec 8) ∧
      b = (b.extractLsb' 2 6 ++ b.extractLsb' 0 2 : BitVec 8) := by decide
  have k2 : ∀ x : BitVec 6, (x ++ 0#2 : BitVec 8).extractLsb' 2 6 = x := by decide
  have h1 : b &&& 0xFC = p := by simpa [Entry.hits] using h
  have h2 := congrArg (BitVec.extractLsb' 2 6) ((k1 b).1.symm.trans (h1.trans hp))
  rw [k2, k2] at h2
  have h3 := (k1 b).2
  rw [h2] at h3
  exact h3

theorem hits5 {p b : Byte} {t : Target} (op : BitVec 5) (hp : p = (op ++ 0#3 : BitVec 8))
    (h : (Entry.mk p 0xF8 t).hits b = true) : b = (op ++ fieldR b : BitVec 8) := by
  have k1 : ∀ b : Byte, b &&& 0xF8 = (b.extractLsb' 3 5 ++ 0#3 : BitVec 8) ∧
      b = (b.extractLsb' 3 5 ++ fieldR b : BitVec 8) := by decide
  have k2 : ∀ x : BitVec 5, (x ++ 0#3 : BitVec 8).extractLsb' 3 5 = x := by decide
  have h1 : b &&& 0xF8 = p := by simpa [Entry.hits] using h
  have h2 := congrArg (BitVec.extractLsb' 3 5) ((k1 b).1.symm.trans (h1.trans hp))
  rw [k2, k2] at h2
  have h3 := (k1 b).2
  rw [h2] at h3
  exact h3

/-! ## An entry is right if its constructor is -/

section
variable {p : Byte}

theorem madeAt8 {t : Target} (h : t.Made p) : Entry.Made ⟨p, 0xFF, t⟩ := by
  intro b hb _ _ _
  rw [hits8 hb]; exact h

theorem madeRmReg {mk : Width → RegField → Rm → Instr} (op : BitVec 7) (hp : p = (op ++ 0#1 : BitVec 8))
    (h : ∀ w reg x, Made (op ++ w.bits : BitVec 8) (mk w reg x) (x.bytes reg) (2 + x.dispLen) x.wf x.isMem) :
    Entry.Made ⟨p, 0xFE, .regMemToFromReg (.rmReg mk)⟩ := by
  intro b hb _ _ _ reg x
  have := h (fieldW b) reg x
  rwa [← hits7 op hp hb] at this

theorem madeAccImm {mk : ImmW → Instr} (op : BitVec 7) (hp : p = (op ++ 0#1 : BitVec 8))
    (h : ∀ im, Made (op ++ im.width.bits : BitVec 8) (mk im) im.bytes (1 + im.dataLen) true false) :
    Entry.Made ⟨p, 0xFE, .immediateToAccumulator (.accImm mk)⟩ := by
  intro b hb _ _ _ im hw
  have := h im
  rwa [hw, ← hits7 op hp hb] at this

theorem madeAccMem {mk : Width → Word → Instr} (op : BitVec 7) (hp : p = (op ++ 0#1 : BitVec 8))
    (h : ∀ w a, Made (op ++ w.bits : BitVec 8) (mk w a) (wordBytes a) 3 true true) :
    Entry.Made ⟨p, 0xFE, .immediateToAccumulator (.accMem mk)⟩ := by
  intro b hb _ _ _ a
  have := h (fieldW b) a
  rwa [← hits7 op hp hb] at this

theorem madePort8 {mk : Width → Byte → Instr} (op : BitVec 7) (hp : p = (op ++ 0#1 : BitVec 8))
    (h : ∀ w v, Made (op ++ w.bits : BitVec 8) (mk w v) [v] 2 true false) :
    Entry.Made ⟨p, 0xFE, .immediateToAccumulator (.port8 mk)⟩ := by
  intro b hb _ _ _ v
  have := h (fieldW b) v
  rwa [← hits7 op hp hb] at this

theorem madePortDx {mk : Width → Instr} (op : BitVec 7) (hp : p = (op ++ 0#1 : BitVec 8))
    (h : ∀ w, Made (op ++ w.bits : BitVec 8) (mk w) [] 1 true false) : Entry.Made ⟨p, 0xFE, .noOperand (.portDx mk)⟩ := by
  intro b hb _ _ _
  have := h (fieldW b)
  rwa [← hits7 op hp hb] at this

theorem madeStr {mk : Width → Instr} (op : BitVec 7) (hp : p = (op ++ 0#1 : BitVec 8))
    (h : ∀ w, Made (op ++ w.bits : BitVec 8) (mk w) [] 1 true false) : Entry.Made ⟨p, 0xFE, .noOperand (.str mk)⟩ := by
  intro b hb _ _ _
  have := h (fieldW b)
  rwa [← hits7 op hp hb] at this

theorem low2_dw (b : Byte) : b.extractLsb' 0 2 = ((fieldD b).bits ++ (fieldW b).bits : BitVec 2) := by
  revert b; decide

theorem madeRmRegD {mk : Dir → Width → RegField → Rm → Instr} (op : BitVec 6) (hp : p = (op ++ 0#2 : BitVec 8))
    (h : ∀ d w reg x, Made (op ++ d.bits ++ w.bits : BitVec 8) (mk d w reg x) (x.bytes reg) (2 + x.dispLen) x.wf x.isMem) :
    Entry.Made ⟨p, 0xFC, .regMemToFromReg (.rmRegD mk)⟩ := by
  intro b hb _ _ _ reg x
  have h1 := h (fieldD b) (fieldW b) reg x
  have h2 : (op ++ (fieldD b).bits ++ (fieldW b).bits : BitVec 8) = b := by
    have key : ∀ (op : BitVec 6) (d w : BitVec 1), (op ++ d ++ w : BitVec 8) = (op ++ (d ++ w : BitVec 2) : BitVec 8) := by
      decide
    rw [key, ← low2_dw]; exact (hits6 op hp hb).symm
  rwa [h2] at h1

theorem madeReg16 {mk : RegField → Instr} (op : BitVec 5) (hp : p = (op ++ 0#3 : BitVec 8))
    (h : ∀ r, Made (op ++ r : BitVec 8) (mk r) [] 1 true false) : Entry.Made ⟨p, 0xF8, .registerOnly mk⟩ := by
  intro b hb _ _ _
  have := h (fieldR b)
  rwa [← hits5 op hp hb] at this

end

/-! ## The entries that need more -/

theorem madeXchg : Entry.Made ⟨0x90, 0xF8, .registerOnly .xchgAxReg⟩ := by
  intro b hb h0 _ _
  have hr : fieldR b ≠ 0 := by
    intro hr
    apply h0
    have := hits5 0b10010#5 rfl hb
    rw [hr] at this
    exact this
  have key : b = (0b10010#5 ++ fieldR b : BitVec 8) := hits5 0b10010#5 rfl hb
  exact ⟨congrArg (· :: []) key.symm, rfl, decide_eq_true hr, rfl, rfl⟩

theorem madePushSreg : Entry.Made ⟨0x06, 0xE7, .segmentRegisterOnly .pushSreg⟩ := by
  intro b hb _ _ _
  have key : ∀ b : Byte, b &&& 0xE7 = 0x06 → (0b000#3 ++ (fieldSr b).bits ++ 0b110#3 : BitVec 8) = b := by decide
  exact ⟨congrArg (· :: []) (key b (by simpa [Entry.hits] using hb)), rfl, rfl, rfl, rfl⟩

theorem madePopSreg : Entry.Made ⟨0x07, 0xE7, .segmentRegisterOnly .popSreg⟩ := by
  intro b hb _ h0 _
  have key : ∀ b : Byte, b &&& 0xE7 = 0x07 → b ≠ 0x0F →
      (0b000#3 ++ (fieldSr b).bits ++ 0b111#3 : BitVec 8) = b ∧ fieldSr b ≠ .cs := by decide
  obtain ⟨h1, h2⟩ := key b (by simpa [Entry.hits] using hb) h0
  exact ⟨congrArg (· :: []) h1, rfl, decide_eq_true h2, rfl, rfl⟩

theorem madeSegPrefix : Entry.Made ⟨0x26, 0xE7, .prefixByte .segmentRegisterOnly⟩ := by
  intro b hb _ _ _
  have key : ∀ b : Byte, b &&& 0xE7 = 0x26 → isPrefixByte b = true := by decide
  exact key b (by simpa [Entry.hits] using hb)

theorem madeRegImm : Entry.Made ⟨0xB0, 0xF0, .immediateToRegister .movRegImm⟩ := by
  intro b hb _ _ _
  have key : ∀ b : Byte, b &&& 0xF0 = 0xB0 →
      (fieldRegImmW b = .byte ∧ (0b1011#4 ++ (0b0#1 ++ fieldR b : BitVec 4) : BitVec 8) = b) ∨
      (fieldRegImmW b = .word ∧ (0b1011#4 ++ (0b1#1 ++ fieldR b : BitVec 4) : BitVec 8) = b) := by decide
  simp only [Target.Made]
  rcases key b (by simpa [Entry.hits] using hb) with ⟨h1, h2⟩ | ⟨h1, h2⟩ <;> rw [h1] <;> intro v
  · exact ⟨congrArg (· :: _) h2, rfl, rfl, rfl, rfl⟩
  · exact ⟨congrArg (· :: _) h2, rfl, rfl, rfl, rfl⟩

/-! The groups (R74). -/

theorem madeGrp1 : Entry.Made ⟨0x80, 0xFC, .group .grp1⟩ := by
  intro b hb _ _ _ k row hrow
  have h1 := hits6 0b100000#6 rfl hb
  have key : ∀ im : ImmSW, im.width = fieldW b → im.sBit = fieldS b → (0b100000#6 ++ im.swBits : BitVec 8) = b := by
    have low : ∀ (b : Byte), b.extractLsb' 0 2 = ((if fieldS b then 1#1 else 0#1) ++ (fieldW b).bits : BitVec 2) := by decide
    intro im hw hs
    rw [h1, low, ← hw, ← hs]
    rcases im with ⟨s, v⟩ | v | v
    · cases s <;> rfl
    · simp only [ImmSW.swBits, ImmSW.sBit, ImmSW.width, Width.bits]; rfl
    · simp only [ImmSW.swBits, ImmSW.sBit, ImmSW.width, Width.bits, Bool.false_eq_true, if_false]; rfl
  rcases regField_cases k with rfl | rfl | rfl | rfl | rfl | rfl | rfl | rfl <;> cases hrow <;>
    exact fun x im hw hs => ⟨congrArg (· :: _) (key im hw hs), rfl, rfl, rfl, rfl⟩

theorem madeGrp2 : Entry.Made ⟨0xD0, 0xFC, .group .grp2⟩ := by
  intro b hb _ _ _ k row hrow
  have h1 : (0b110100#6 ++ (fieldV b).bits ++ (fieldW b).bits : BitVec 8) = b := by
    have key : ∀ b : Byte, b &&& 0xFC = 0xD0 → (0b110100#6 ++ (fieldV b).bits ++ (fieldW b).bits : BitVec 8) = b := by
      decide
    exact key b (by simpa [Entry.hits] using hb)
  rcases regField_cases k with rfl | rfl | rfl | rfl | rfl | rfl | rfl | rfl <;> cases hrow <;>
    exact fun x => ⟨congrArg (· :: _) h1, rfl, rfl, rfl, rfl⟩

theorem madeGrp3 : Entry.Made ⟨0xF6, 0xFE, .group .grp3⟩ := by
  intro b hb _ _ _ k row hrow
  have h1 := hits7 0b1111011#7 rfl hb
  rcases regField_cases k with rfl | rfl | rfl | rfl | rfl | rfl | rfl | rfl <;> cases hrow
  · intro x im hw
    rw [← hw] at h1
    exact ⟨congrArg (· :: _) h1.symm, rfl, rfl, rfl, rfl⟩
  all_goals exact fun x => ⟨congrArg (· :: _) h1.symm, rfl, rfl, rfl, rfl⟩

theorem madeGrpC6 : Entry.Made ⟨0xC6, 0xFE, .group .grpc6⟩ := by
  intro b hb _ _ _ k row hrow
  have h1 := hits7 0b1100011#7 rfl hb
  rcases regField_cases k with rfl | rfl | rfl | rfl | rfl | rfl | rfl | rfl <;> cases hrow
  intro x im hw
  rw [← hw] at h1
  exact ⟨congrArg (· :: _) h1.symm, rfl, rfl, rfl, rfl⟩

theorem grp4_made : (Target.group .grp4).Made 0xFE := by
  intro k row hrow
  rcases regField_cases k with rfl | rfl | rfl | rfl | rfl | rfl | rfl | rfl <;> cases hrow <;>
    exact fun x => ⟨rfl, rfl, rfl, rfl, rfl⟩

theorem grp5_made : (Target.group .grp5).Made 0xFF := by
  intro k row hrow
  rcases regField_cases k with rfl | rfl | rfl | rfl | rfl | rfl | rfl | rfl <;> cases hrow <;>
    exact fun x => ⟨rfl, rfl, rfl, rfl, rfl⟩

theorem grp8f_made : (Target.group .grp8f).Made 0x8F := by
  intro k row hrow
  rcases regField_cases k with rfl | rfl | rfl | rfl | rfl | rfl | rfl | rfl <;> cases hrow
  exact fun x => ⟨rfl, rfl, rfl, rfl, rfl⟩

/-! ## The table (R78) -/

theorem entries8a_made : entries8a.Forall Entry.Made :=
  ⟨fun _ _ _ _ h => absurd rfl h,
   madeAt8 ⟨rfl, rfl, rfl, rfl, rfl⟩,
   madeAt8 ⟨rfl, rfl, rfl, rfl, rfl⟩,
   madeAt8 ⟨rfl, rfl, rfl, rfl, rfl⟩,
   madeAt8 ⟨rfl, rfl, rfl, rfl, rfl⟩,
   madeAt8 fun _ => ⟨rfl, rfl, rfl, rfl, rfl⟩,
   madeAt8 fun _ => ⟨rfl, rfl, rfl, rfl, rfl⟩,
   madeAt8 fun _ => ⟨rfl, rfl, rfl, rfl, rfl⟩,
   madeAt8 fun _ => ⟨rfl, rfl, rfl, rfl, rfl⟩,
   madeAt8 fun _ => ⟨rfl, rfl, rfl, rfl, rfl⟩,
   madeAt8 fun _ => ⟨rfl, rfl, rfl, rfl, rfl⟩,
   madeAt8 fun _ => ⟨rfl, rfl, rfl, rfl, rfl⟩,
   madeAt8 fun _ => ⟨rfl, rfl, rfl, rfl, rfl⟩,
   madeAt8 fun _ => ⟨rfl, rfl, rfl, rfl, rfl⟩,
   madeAt8 fun _ => ⟨rfl, rfl, rfl, rfl, rfl⟩,
   madeAt8 fun _ => ⟨rfl, rfl, rfl, rfl, rfl⟩,
   madeAt8 fun _ => ⟨rfl, rfl, rfl, rfl, rfl⟩,
   madeAt8 fun _ => ⟨rfl, rfl, rfl, rfl, rfl⟩,
   madeAt8 fun _ => ⟨rfl, rfl, rfl, rfl, rfl⟩,
   madeAt8 fun _ => ⟨rfl, rfl, rfl, rfl, rfl⟩,
   madeAt8 fun _ => ⟨rfl, rfl, rfl, rfl, rfl⟩,
   madeAt8 (by rintro _ _ _ rfl; exact ⟨rfl, rfl, rfl, rfl, rfl⟩),
   madeAt8 fun _ _ => ⟨rfl, rfl, rfl, rfl, rfl⟩,
   madeAt8 (by rintro _ _ _ rfl; exact ⟨rfl, rfl, rfl, rfl, rfl⟩),
   madeAt8 grp8f_made,
   madeAt8 ⟨rfl, rfl, rfl, rfl, rfl⟩,
   madeAt8 ⟨rfl, rfl, rfl, rfl, rfl⟩,
   madeAt8 ⟨rfl, rfl, rfl, rfl, rfl⟩,
   madeAt8 fun _ _ => ⟨rfl, rfl, rfl, rfl, rfl⟩,
   madeAt8 ⟨rfl, rfl, rfl, rfl, rfl⟩,
   madeAt8 ⟨rfl, rfl, rfl, rfl, rfl⟩,
   madeAt8 ⟨rfl, rfl, rfl, rfl, rfl⟩,
   madeAt8 ⟨rfl, rfl, rfl, rfl, rfl⟩,
   madeAt8 ⟨rfl, rfl, rfl, rfl, rfl⟩⟩

theorem entries8b_made : entries8b.Forall Entry.Made :=
  ⟨madeAt8 fun _ => ⟨rfl, rfl, rfl, rfl, rfl⟩,
   madeAt8 ⟨rfl, rfl, rfl, rfl, rfl⟩,
   madeAt8 fun _ _ => ⟨rfl, rfl, rfl, rfl, rfl⟩,
   madeAt8 fun _ _ => ⟨rfl, rfl, rfl, rfl, rfl⟩,
   madeAt8 fun _ => ⟨rfl, rfl, rfl, rfl, rfl⟩,
   madeAt8 ⟨rfl, rfl, rfl, rfl, rfl⟩,
   madeAt8 ⟨rfl, rfl, rfl, rfl, rfl⟩,
   madeAt8 fun _ => ⟨rfl, rfl, rfl, rfl, rfl⟩,
   madeAt8 ⟨rfl, rfl, rfl, rfl, rfl⟩,
   madeAt8 ⟨rfl, rfl, rfl, rfl, rfl⟩,
   madeAt8 ⟨rfl, rfl, rfl, rfl, rfl⟩,
   madeAt8 ⟨rfl, rfl, rfl, rfl, rfl⟩,
   madeAt8 ⟨rfl, rfl, rfl, rfl, rfl⟩,
   madeAt8 fun _ => ⟨rfl, rfl, rfl, rfl, rfl⟩,
   madeAt8 fun _ => ⟨rfl, rfl, rfl, rfl, rfl⟩,
   madeAt8 fun _ => ⟨rfl, rfl, rfl, rfl, rfl⟩,
   madeAt8 fun _ => ⟨rfl, rfl, rfl, rfl, rfl⟩,
   madeAt8 fun _ => ⟨rfl, rfl, rfl, rfl, rfl⟩,
   madeAt8 fun _ => ⟨rfl, rfl, rfl, rfl, rfl⟩,
   madeAt8 fun _ _ => ⟨rfl, rfl, rfl, rfl, rfl⟩,
   madeAt8 fun _ => ⟨rfl, rfl, rfl, rfl, rfl⟩,
   madeAt8 rfl,
   madeAt8 rfl,
   madeAt8 rfl,
   madeAt8 ⟨rfl, rfl, rfl, rfl, rfl⟩,
   madeAt8 ⟨rfl, rfl, rfl, rfl, rfl⟩,
   madeAt8 ⟨rfl, rfl, rfl, rfl, rfl⟩,
   madeAt8 ⟨rfl, rfl, rfl, rfl, rfl⟩,
   madeAt8 ⟨rfl, rfl, rfl, rfl, rfl⟩,
   madeAt8 ⟨rfl, rfl, rfl, rfl, rfl⟩,
   madeAt8 ⟨rfl, rfl, rfl, rfl, rfl⟩,
   madeAt8 ⟨rfl, rfl, rfl, rfl, rfl⟩,
   madeAt8 grp4_made,
   madeAt8 grp5_made⟩

theorem entries7_made : entries7.Forall Entry.Made :=
  ⟨madeAccImm 0b0000010#7 rfl fun _ => ⟨rfl, rfl, rfl, rfl, rfl⟩,
   madeAccImm 0b0000110#7 rfl fun _ => ⟨rfl, rfl, rfl, rfl, rfl⟩,
   madeAccImm 0b0001010#7 rfl fun _ => ⟨rfl, rfl, rfl, rfl, rfl⟩,
   madeAccImm 0b0001110#7 rfl fun _ => ⟨rfl, rfl, rfl, rfl, rfl⟩,
   madeAccImm 0b0010010#7 rfl fun _ => ⟨rfl, rfl, rfl, rfl, rfl⟩,
   madeAccImm 0b0010110#7 rfl fun _ => ⟨rfl, rfl, rfl, rfl, rfl⟩,
   madeAccImm 0b0011010#7 rfl fun _ => ⟨rfl, rfl, rfl, rfl, rfl⟩,
   madeAccImm 0b0011110#7 rfl fun _ => ⟨rfl, rfl, rfl, rfl, rfl⟩,
   madeRmReg 0b1000010#7 rfl fun _ _ _ => ⟨rfl, rfl, rfl, rfl, rfl⟩,
   madeRmReg 0b1000011#7 rfl fun _ _ _ => ⟨rfl, rfl, rfl, rfl, rfl⟩,
   madeAccMem 0b1010000#7 rfl fun _ _ => ⟨rfl, rfl, rfl, rfl, rfl⟩,
   madeAccMem 0b1010001#7 rfl fun _ _ => ⟨rfl, rfl, rfl, rfl, rfl⟩,
   madeStr 0b1010010#7 rfl fun _ => ⟨rfl, rfl, rfl, rfl, rfl⟩,
   madeStr 0b1010011#7 rfl fun _ => ⟨rfl, rfl, rfl, rfl, rfl⟩,
   madeAccImm 0b1010100#7 rfl fun _ => ⟨rfl, rfl, rfl, rfl, rfl⟩,
   madeStr 0b1010101#7 rfl fun _ => ⟨rfl, rfl, rfl, rfl, rfl⟩,
   madeStr 0b1010110#7 rfl fun _ => ⟨rfl, rfl, rfl, rfl, rfl⟩,
   madeStr 0b1010111#7 rfl fun _ => ⟨rfl, rfl, rfl, rfl, rfl⟩,
   madeGrpC6,
   madePort8 0b1110010#7 rfl fun _ _ => ⟨rfl, rfl, rfl, rfl, rfl⟩,
   madePort8 0b1110011#7 rfl fun _ _ => ⟨rfl, rfl, rfl, rfl, rfl⟩,
   madePortDx 0b1110110#7 rfl fun _ => ⟨rfl, rfl, rfl, rfl, rfl⟩,
   madePortDx 0b1110111#7 rfl fun _ => ⟨rfl, rfl, rfl, rfl, rfl⟩,
   madeGrp3⟩

theorem entries6_made : entries6.Forall Entry.Made :=
  ⟨madeRmRegD 0b000000#6 rfl fun _ _ _ _ => ⟨rfl, rfl, rfl, rfl, rfl⟩,
   madePushSreg,
   madePopSreg,
   madeRmRegD 0b000010#6 rfl fun _ _ _ _ => ⟨rfl, rfl, rfl, rfl, rfl⟩,
   madeRmRegD 0b000100#6 rfl fun _ _ _ _ => ⟨rfl, rfl, rfl, rfl, rfl⟩,
   madeRmRegD 0b000110#6 rfl fun _ _ _ _ => ⟨rfl, rfl, rfl, rfl, rfl⟩,
   madeRmRegD 0b001000#6 rfl fun _ _ _ _ => ⟨rfl, rfl, rfl, rfl, rfl⟩,
   madeSegPrefix,
   madeRmRegD 0b001010#6 rfl fun _ _ _ _ => ⟨rfl, rfl, rfl, rfl, rfl⟩,
   madeRmRegD 0b001100#6 rfl fun _ _ _ _ => ⟨rfl, rfl, rfl, rfl, rfl⟩,
   madeRmRegD 0b001110#6 rfl fun _ _ _ _ => ⟨rfl, rfl, rfl, rfl, rfl⟩,
   madeGrp1,
   madeRmRegD 0b100010#6 rfl fun _ _ _ _ => ⟨rfl, rfl, rfl, rfl, rfl⟩,
   madeGrp2⟩

theorem entries5_made : entries5.Forall Entry.Made :=
  ⟨madeReg16 0b01000#5 rfl fun _ => ⟨rfl, rfl, rfl, rfl, rfl⟩,
   madeReg16 0b01001#5 rfl fun _ => ⟨rfl, rfl, rfl, rfl, rfl⟩,
   madeReg16 0b01010#5 rfl fun _ => ⟨rfl, rfl, rfl, rfl, rfl⟩,
   madeReg16 0b01011#5 rfl fun _ => ⟨rfl, rfl, rfl, rfl, rfl⟩,
   madeXchg⟩

theorem entries4_made : entries4.Forall Entry.Made := madeRegImm

/-- What `Dispatch` answers for a byte is an entry's target that is right at that byte (R118). -/
theorem dispatch_made (b : Byte) (t : Target) (h : dispatch b = some t) : t.Made b := by
  by_cases h90 : b = 0x90
  · subst h90
    have : dispatch 0x90 = some (.noOperand (.bare .nop)) := rfl
    rw [this] at h
    cases h
    exact ⟨rfl, rfl, rfl, rfl, rfl⟩
  by_cases h0f : b = 0x0F
  · subst h0f
    have : dispatch 0x0F = none := rfl
    rw [this] at h
    cases h
  unfold dispatch at h
  cases he : firstEntry b with
  | none => rw [he] at h; cases h
  | some e =>
    rw [he] at h
    have hmem : e ∈ dispatchTable := List.mem_of_find?_eq_some he
    have hhit : e.hits b = true := List.find?_some (p := fun e : Entry => e.hits b) he
    have hmade : e.Made := by
      simp only [dispatchTable, List.mem_append] at hmem
      rcases hmem with ((((h | h) | h) | h) | h) | h
      · exact List.forall_iff_forall_mem.1 entries8a_made e h
      · exact List.forall_iff_forall_mem.1 entries8b_made e h
      · exact List.forall_iff_forall_mem.1 entries7_made e h
      · exact List.forall_iff_forall_mem.1 entries6_made e h
      · exact List.forall_iff_forall_mem.1 entries5_made e h
      · exact List.forall_iff_forall_mem.1 entries4_made e h
    have hm := hmade b hhit h90 h0f
    obtain ⟨pat, mask, target⟩ := e
    cases target <;> cases h <;> exact hm (by rintro ⟨⟩)

/-- The string opcodes are dispatched to the string rows (R113, R157). -/
theorem dispatch_string (b : Byte) (h : isStringByte b = true) :
    ∃ mk, dispatch b = some (.noOperand (.str mk)) ∧ ∀ w, (mk w).isStringOp = true := by
  have key : ∀ b : Byte, isStringByte b = true → b = 0xA4 ∨ b = 0xA5 ∨ b = 0xA6 ∨ b = 0xA7 ∨ b = 0xAA ∨ b = 0xAB ∨
      b = 0xAC ∨ b = 0xAD ∨ b = 0xAE ∨ b = 0xAF := by decide
  rcases key b h with rfl | rfl | rfl | rfl | rfl | rfl | rfl | rfl | rfl | rfl <;> exact ⟨_, rfl, fun _ => rfl⟩

/-! ## What a routine reads -/

/-- The routine of opcode byte `b`, run from `c` to `c'`, answered `i`: a well-formed instruction whose encoding is `b` and
the bytes read. -/
def RoutineReads (b : Byte) (sg : Option SegLatch) (c : Cursor) (i : Instr) (c' : Cursor) : Prop :=
  i.wf = true ∧ i.isPrefixed = false ∧ (sg.isSome = true → i.hasMem = true) ∧
  ∃ l, i.encode = b :: l ∧ Cursor.Reads c l c' ∧ i.length = 1 + l.length

theorem routineReads_rm {b sg} {c c1 c2 : Cursor} {i m o x} (h1 : c.readModRM = .ok (ModRM.of m o, c1)) (hsg : sg.isSome = true → (!(ModRM.of m o).isReg) = true)
   (h2 : readRm (ModRM.of m o) c1 = .ok (x, c2)) (hM : Made b i (x.bytes (ModRM.of m o).reg) (2 + x.dispLen) x.wf x.isMem) : RoutineReads b sg c i c2 := by
  obtain ⟨m', hb, he⟩ := readModRM_reads h1
  obtain ⟨e1, e2, e3, e4, e5⟩ := hM
  have hm : m = m' := by simpa [ModRM.of] using congrArg ModRM.byte he
  subst hm
  obtain ⟨a1, a2, l, a3, a4, a5⟩ := readRm_reads h2
  refine ⟨by rw [e3, a1], e5, by rw [e4, a2]; exact hsg, m :: l, by rw [e1, a4], ?_, by rw [e2, a5]; simp; omega⟩
  simpa using hb.trans a3

theorem routineReads_rmi {b sg} {c c1 c2 c3 : Cursor} {i m o x bs n} (h1 : c.readModRM = .ok (ModRM.of m o, c1)) (hsg : sg.isSome = true → (!(ModRM.of m o).isReg) = true)
   (h2 : readRm (ModRM.of m o) c1 = .ok (x, c2)) (h3 : Cursor.Reads c2 bs c3) (hn : n = bs.length) (hM : Made b i (x.bytes (ModRM.of m o).reg ++ bs) (2 + x.dispLen + n) x.wf x.isMem) : RoutineReads b sg c i c3 := by
  obtain ⟨m', hb, he⟩ := readModRM_reads h1
  obtain ⟨e1, e2, e3, e4, e5⟩ := hM
  have hm : m = m' := by simpa [ModRM.of] using congrArg ModRM.byte he
  subst hm
  obtain ⟨a1, a2, l, a3, a4, a5⟩ := readRm_reads h2
  refine ⟨by rw [e3, a1], e5, by rw [e4, a2]; exact hsg, m :: (l ++ bs), by rw [e1, a4]; rfl, ?_, by rw [e2, a5, hn]; simp; omega⟩
  simpa using hb.trans (a3.trans h3)

theorem routineReads_mem {b sg} {c c1 c2 : Cursor} {i m o x} (h1 : c.readModRM = .ok (ModRM.of m o, c1)) (hr : (ModRM.of m o).isReg = false)
   (h2 : readMem (ModRM.of m o) c1 = .ok (x, c2)) (hM : Made b i (x.bytes (ModRM.of m o).reg) (2 + x.dispLen) x.wf true) : RoutineReads b sg c i c2 := by
  obtain ⟨m', hb, he⟩ := readModRM_reads h1
  obtain ⟨e1, e2, e3, e4, e5⟩ := hM
  have hm : m = m' := by simpa [ModRM.of] using congrArg ModRM.byte he
  subst hm
  obtain ⟨a1, l, a3, a4, a5⟩ := readMem_reads h2 hr
  refine ⟨by rw [e3, a1], e5, by rw [e4]; simp, m :: l, by rw [e1, a4], ?_, by rw [e2, a5]; simp; omega⟩
  simpa using hb.trans a3

theorem routineReads_plain {b sg} {c c1 : Cursor} {i l n hm} (h : Cursor.Reads c l c1) (hsg : sg.isSome = true → hm = true) (hn : n = 1 + l.length) (hM : Made b i l n true hm) : RoutineReads b sg c i c1 := by
  obtain ⟨e1, e2, e3, e4, e5⟩ := hM
  exact ⟨e3, e5, by rw [e4]; exact hsg, l, e1, h, by rw [e2, hn]⟩

/-- What the routine of shape RegMemToFromReg has read, from the ModRM byte on. -/
theorem regMemRoutine_reads {f : RegMemForm} {b sg} {c c1 : Cursor} {m o i c'} (h1 : c.readModRM = .ok (ModRM.of m o, c1))
    (hM : f.Made b (ModRM.of m o).reg) (h : regMemRoutine f (ModRM.of m o) b sg c1 = .ok (i, c')) : RoutineReads b sg c i c' := by
  cases f <;> simp only [regMemRoutine] at h
  case regMem mk | mem16 mk =>
    split at h
    · cases h
    rename_i hr
    obtain ⟨u, hs, h⟩ := bind_eq_ok h
    obtain ⟨⟨x, c2⟩, h2, h⟩ := bind_eq_ok h
    cases h
    exact routineReads_mem h1 (by simpa using hr) h2 (hM _)
  case rmSreg mk =>
    split at h
    · cases h
    rename_i hr
    obtain ⟨u, hs, h⟩ := bind_eq_ok h
    obtain ⟨⟨x, c2⟩, h2, h⟩ := bind_eq_ok h
    cases h
    have key : ∀ k : BitVec 3, k.getLsbD 2 ≠ true → k = 0b0#1 ++ (Sreg.ofBits (k.extractLsb' 0 2)).bits := by decide
    exact routineReads_rm h1 (segCheck_inv hs) h2 (hM _ x (key _ hr))
  all_goals
    obtain ⟨u, hs, h⟩ := bind_eq_ok h
    obtain ⟨⟨x, c2⟩, h2, h⟩ := bind_eq_ok h
    cases h
    exact routineReads_rm h1 (segCheck_inv hs) h2 (hM _)

/-- What the routine of a group's row has read, from the ModRM byte on. -/
theorem groupRoutine_reads {row : GroupRow} {b sg} {c c1 : Cursor} {m o i c'} (h1 : c.readModRM = .ok (ModRM.of m o, c1))
    (hM : row.Made b (ModRM.of m o).reg) (h : groupRoutine row (ModRM.of m o) b sg c1 = .ok (i, c')) :
    RoutineReads b sg c i c' := by
  rcases row with f | ⟨mk⟩ | ⟨mk⟩
  · exact regMemRoutine_reads h1 hM h
  all_goals
    simp only [groupRoutine, immRegMemRoutine] at h
    obtain ⟨u, hs, h⟩ := bind_eq_ok h
    obtain ⟨⟨x, c2⟩, h2, h⟩ := bind_eq_ok h
    obtain ⟨⟨im, c3⟩, h3, h⟩ := bind_eq_ok h
    cases h
  · obtain ⟨i1, i2, i3, i4⟩ := readImmSW_reads h3
    exact routineReads_rmi h1 (segCheck_inv hs) h2 i3 i4 (hM _ _ i1 i2)
  · obtain ⟨i1, i3, i4⟩ := readImmW_reads h3
    exact routineReads_rmi h1 (segCheck_inv hs) h2 i3 i4 (hM _ _ i1)

/-- A routine that answers an instruction has read exactly its encoding (R169). -/
theorem routine_reads {t b o sg c i c'} (hM : t.Made b) (h : routine t ⟨b, o⟩ sg c = .ok (i, c')) : RoutineReads b sg c i c' := by
  have nomem : ∀ {k}, noMem sg c k = .ok (i, c') → (sg.isSome = true → false = true) ∧ k c = .ok (i, c') := by
    intro k h; obtain ⟨u, h1, h2⟩ := bind_eq_ok h; exact ⟨segCheck_inv h1, h2⟩
  have byte : ∀ {mk : Byte → Instr}, (∀ v, Made b (mk v) [v] 2 true false) →
      noMem sg c (fun c => do let (v, c) ← c.readByte; return (mk v, c)) = .ok (i, c') → RoutineReads b sg c i c' := by
    intro mk hM h
    obtain ⟨hs, h⟩ := nomem h
    obtain ⟨⟨v, c2⟩, h2, h⟩ := bind_eq_ok h
    cases h
    exact routineReads_plain (readByte_reads h2) hs rfl (hM _)
  have word : ∀ {mk : Word → Instr}, (∀ v, Made b (mk v) (wordBytes v) 3 true false) →
      noMem sg c (fun c => do let (v, c) ← c.readWord; return (mk v, c)) = .ok (i, c') → RoutineReads b sg c i c' := by
    intro mk hM h
    obtain ⟨hs, h⟩ := nomem h
    obtain ⟨⟨v, c2⟩, h2, h⟩ := bind_eq_ok h
    cases h
    exact routineReads_plain (readWord_reads h2) hs rfl (hM _)
  have bare : ∀ {j}, Made b j [] 1 true false → noMem sg c (fun c => .ok (j, c)) = .ok (i, c') → RoutineReads b sg c i c' := by
    intro j hM h
    obtain ⟨hs, h⟩ := nomem h
    cases h
    exact routineReads_plain (.refl _) hs rfl hM
  cases t with
  | refuse => cases h
  | prefixByte sh => cases h
  | group g =>
    obtain ⟨⟨M, c1⟩, h1, h⟩ := bind_eq_ok h
    obtain ⟨m, hb, rfl⟩ := readModRM_reads h1
    simp only at h
    split at h
    · cases h
    rename_i row hrow
    exact groupRoutine_reads h1 (hM _ _ hrow) h
  | regMemToFromReg f =>
    obtain ⟨⟨M, c1⟩, h1, h⟩ := bind_eq_ok h
    obtain ⟨m, hb, rfl⟩ := readModRM_reads h1
    exact regMemRoutine_reads h1 (hM _) h
  | immediateToAccumulator f =>
    cases f with
    | accImm mk =>
      simp only [routine, accRoutine] at h
      obtain ⟨hs, h⟩ := nomem h
      obtain ⟨⟨im, c2⟩, h2, h⟩ := bind_eq_ok h
      cases h
      obtain ⟨i1, i3, i4⟩ := readImmW_reads h2
      exact routineReads_plain i3 hs (by rw [i4]) (hM _ i1)
    | accMem mk =>
      obtain ⟨u, hs, h⟩ := bind_eq_ok h
      obtain ⟨⟨a, c2⟩, h2, h⟩ := bind_eq_ok h
      cases h
      exact routineReads_plain (readWord_reads h2) (segCheck_inv hs) rfl (hM _)
    | port8 mk => exact byte hM h
  | immediateToRegister mk =>
    simp only [routine, regImmRoutine] at h
    obtain ⟨hs, h⟩ := nomem h
    simp only [Target.Made] at hM
    cases hw : fieldRegImmW b <;> simp only [hw] at h hM <;> obtain ⟨⟨im, c2⟩, h2, h⟩ := bind_eq_ok h <;> cases h
    · exact routineReads_plain (readByte_reads h2) hs rfl (hM _)
    · exact routineReads_plain (readWord_reads h2) hs rfl (hM _)
  | shortJump mk => exact byte hM h
  | nearProcLabel mk => exact word hM h
  | farProcLabel mk =>
    simp only [routine, farRoutine] at h
    obtain ⟨hs, h⟩ := nomem h
    obtain ⟨⟨im, c2⟩, h2, h⟩ := bind_eq_ok h
    obtain ⟨⟨im, c3⟩, h3, h⟩ := bind_eq_ok h
    cases h
    exact routineReads_plain ((readWord_reads h2).trans (readWord_reads h3)) hs rfl (hM _ _)
  | registerOnly mk => exact bare hM h
  | segmentRegisterOnly mk => exact bare hM h
  | noOperand f => cases f <;> exact bare hM h
  | other f =>
    cases f with
    | imm8 mk => exact byte hM h
    | imm16 mk => exact word hM h
    | aa j =>
      simp only [routine, otherRoutine] at h
      obtain ⟨hs, h⟩ := nomem h
      obtain ⟨⟨y, c2⟩, h2, h⟩ := bind_eq_ok h
      obtain ⟨⟨z, c3⟩, h3, h4⟩ := bind_eq_ok h2
      cases h4
      simp only at h
      split at h
      · rename_i hz
        cases h
        have := readByte_reads h3
        rw [show z = 0x0A from hz] at this
        exact routineReads_plain this hs rfl hM
      · cases h

/-- The routine of a string opcode answers a string instruction (R157). -/
theorem routine_string {x : Located} {t : Target} {sg : Option SegLatch} {c c' : Cursor} {i : Instr}
    (hs : isStringByte x.byte = true) (ht : dispatch x.byte = some t) (h : routine t x sg c = .ok (i, c')) :
    i.isStringOp = true := by
  obtain ⟨mk, hd, hm⟩ := dispatch_string x.byte hs
  rw [ht] at hd
  cases hd
  obtain ⟨u, -, h⟩ := bind_eq_ok h
  cases h
  exact hm _

end Sys2Proof
end

