-- ==== Sys2Proof/Laws/State.lean ====
section
/-! SUPPORT. One lemma per field for each update of the state, so that no proof unfolds a record update. -/

namespace Sys2Proof.Machine

/-! ## `emit` (R111) -/

@[simp] theorem State.emit_buf (s : State) (line : String) (next : Nat) : (s.emit line next).buf = s.buf := rfl
@[simp] theorem State.emit_sourceName (s : State) (line : String) (next : Nat) : (s.emit line next).sourceName = s.sourceName := rfl
@[simp] theorem State.emit_loadBase (s : State) (line : String) (next : Nat) : (s.emit line next).loadBase = s.loadBase := rfl
@[simp] theorem State.emit_cursor (s : State) (line : String) (next : Nat) : (s.emit line next).cursor = next := rfl
@[simp] theorem State.emit_status (s : State) (line : String) (next : Nat) : (s.emit line next).status = s.status := rfl
@[simp] theorem State.emit_error (s : State) (line : String) (next : Nat) : (s.emit line next).error = s.error := rfl
@[simp] theorem State.emit_listing (s : State) (line : String) (next : Nat) : (s.emit line next).listing = s.listing ++ [line] := rfl

/-! ## `finish` (R111) -/

@[simp] theorem State.finish_buf (s : State) : (s.finish).buf = s.buf := rfl
@[simp] theorem State.finish_sourceName (s : State) : (s.finish).sourceName = s.sourceName := rfl
@[simp] theorem State.finish_loadBase (s : State) : (s.finish).loadBase = s.loadBase := rfl
@[simp] theorem State.finish_cursor (s : State) : (s.finish).cursor = s.cursor := rfl
@[simp] theorem State.finish_status (s : State) : (s.finish).status = .done := rfl
@[simp] theorem State.finish_error (s : State) : (s.finish).error = s.error := rfl
@[simp] theorem State.finish_listing (s : State) : (s.finish).listing = s.listing := rfl

/-! ## `takeError` (R387) -/

@[simp] theorem State.takeError_buf (s : State) (e : ErrorRecord) : (s.takeError e).buf = s.buf := rfl
@[simp] theorem State.takeError_sourceName (s : State) (e : ErrorRecord) : (s.takeError e).sourceName = s.sourceName := rfl
@[simp] theorem State.takeError_loadBase (s : State) (e : ErrorRecord) : (s.takeError e).loadBase = s.loadBase := rfl
@[simp] theorem State.takeError_cursor (s : State) (e : ErrorRecord) : (s.takeError e).cursor = s.cursor := rfl
@[simp] theorem State.takeError_status (s : State) (e : ErrorRecord) : (s.takeError e).status = .error := rfl
@[simp] theorem State.takeError_error (s : State) (e : ErrorRecord) : (s.takeError e).error = some e := rfl
@[simp] theorem State.takeError_listing (s : State) (e : ErrorRecord) : (s.takeError e).listing = s.listing := rfl

/-! ## `resetWith` (R34, R401) -/

@[simp] theorem State.resetWith_buf (buf : List Byte) (name : String) (base : Word) :
    (State.resetWith buf name base).buf = buf := rfl
@[simp] theorem State.resetWith_sourceName (buf : List Byte) (name : String) (base : Word) :
    (State.resetWith buf name base).sourceName = name := rfl
@[simp] theorem State.resetWith_loadBase (buf : List Byte) (name : String) (base : Word) :
    (State.resetWith buf name base).loadBase = base := rfl
@[simp] theorem State.resetWith_cursor (buf : List Byte) (name : String) (base : Word) :
    (State.resetWith buf name base).cursor = 0 := rfl
@[simp] theorem State.resetWith_status (buf : List Byte) (name : String) (base : Word) :
    (State.resetWith buf name base).status = .running := rfl
@[simp] theorem State.resetWith_error (buf : List Byte) (name : String) (base : Word) :
    (State.resetWith buf name base).error = none := rfl
@[simp] theorem State.resetWith_listing (buf : List Byte) (name : String) (base : Word) :
    (State.resetWith buf name base).listing = [headerLine name, directiveLine] := rfl

/-! ## `withFetchWord` -/

@[simp] theorem State.withFetchWord_sourceName (s : State) (nbits w : Nat) : (s.withFetchWord nbits w).sourceName = s.sourceName := rfl
@[simp] theorem State.withFetchWord_loadBase (s : State) (nbits w : Nat) : (s.withFetchWord nbits w).loadBase = s.loadBase := rfl
@[simp] theorem State.withFetchWord_cursor (s : State) (nbits w : Nat) : (s.withFetchWord nbits w).cursor = s.cursor := rfl
@[simp] theorem State.withFetchWord_status (s : State) (nbits w : Nat) : (s.withFetchWord nbits w).status = .running := rfl
@[simp] theorem State.withFetchWord_error (s : State) (nbits w : Nat) : (s.withFetchWord nbits w).error = none := rfl
@[simp] theorem State.withFetchWord_listing (s : State) (nbits w : Nat) : (s.withFetchWord nbits w).listing = s.listing := rfl

/-! ## `Len` (R9) -/

@[simp] theorem State.emit_len (s : State) (line : String) (next : Nat) : (s.emit line next).len = s.len := rfl
@[simp] theorem State.finish_len (s : State) : s.finish.len = s.len := rfl
@[simp] theorem State.takeError_len (s : State) (e : ErrorRecord) : (s.takeError e).len = s.len := rfl

end Sys2Proof.Machine
end

