-- ==== Sys2Proof/Laws/Ops.lean ====
section
/-! SUPPORT. What each shared operation can do, said once: the meanings, the step, the memory as cells. -/

namespace Sys2Proof.Machine

/-! ## Meanings -/

/-- The line instruction `i` gives at state `s`. -/
def lineOf (i : Instr) (s : State) : String := render (latchesOf i s) (rowOf i (latchesOf i s))

/-- A meaning of a well-formed instruction answers the state with its line and the cursor past it. -/
theorem emitRow_of_wf {i : Instr} (row : Latches → Row) (s : State) (h : WellFormed i) :
    emitRow i row s = .next (s.emit (render (latchesOf i s) (row (latchesOf i s))) (s.cursor + i.length)) := by
  simp only [emitRow, if_pos h]

/-- A meaning answers a refusal for a term that is no instruction. -/
theorem emitRow_of_not_wf {i : Instr} (row : Latches → Row) (s : State) (h : ¬ WellFormed i) :
    emitRow i row s = .refused .illFormed := by
  simp only [emitRow, if_neg h]

/-- Everything a meaning can answer. -/
theorem emitRow_cases (i : Instr) (row : Latches → Row) (s : State) :
    (WellFormed i ∧
      emitRow i row s = .next (s.emit (render (latchesOf i s) (row (latchesOf i s))) (s.cursor + i.length))) ∨
    (¬ WellFormed i ∧ emitRow i row s = .refused .illFormed) := by
  by_cases h : WellFormed i
  · exact .inl ⟨h, emitRow_of_wf row s h⟩
  · exact .inr ⟨h, emitRow_of_not_wf row s h⟩

/-- Every meaning is its row's line and the cursor's advance. -/
theorem exec_eq_emitRow (i : Instr) (s : State) : exec i s = emitRow i (rowOf i) s := by
  cases i <;> rfl

/-- A well-formed instruction completes, with its line appended and the cursor past it. -/
theorem exec_of_wf {i : Instr} (s : State) (h : WellFormed i) :
    exec i s = .next (s.emit (lineOf i s) (s.cursor + i.length)) := by
  rw [exec_eq_emitRow, emitRow_of_wf _ _ h]; rfl

/-! ## The step -/

/-- Everything a step can do (R111, R36). -/
theorem step_cases (s : State) :
    (s.status ≠ .running ∧ step s = .fault .stepNotEnabled) ∨
    (s.status = .running ∧ s.cursor = s.len ∧ step s = .next s.finish) ∨
    (s.status = .running ∧ s.cursor ≠ s.len ∧ ∃ i n, decodeOne s.buf s.cursor = .ok (i, n) ∧ step s = exec i s) ∨
    (s.status = .running ∧ s.cursor ≠ s.len ∧ ∃ e, decodeOne s.buf s.cursor = .error e ∧
      step s = .next (s.takeError e)) := by
  unfold step
  cases hs : s.status with
  | running =>
    by_cases hc : s.cursor = s.len
    · simp [hc]
    · cases hd : decodeOne s.buf s.cursor with
      | ok p => obtain ⟨i, n⟩ := p; simp [hc]
      | error e => simp [hc]
  | done => simp
  | error => simp

/-! ## Memory as cells (log 6) -/

theorem cellsFrom_length (start : Nat) (l : List Byte) : (cellsFrom start l).length = l.length := by
  induction l generalizing start with
  | nil => rfl
  | cons b r ih => simp [cellsFrom, ih]

/-- The cells of a buffer are in canonical form. -/
theorem cellsFrom_wf (start : Nat) (l : List Byte) : Memory.wf (cellsFrom start l) = true := by
  induction l generalizing start with
  | nil => rfl
  | cons b r ih =>
    cases r with
    | nil => simp [cellsFrom, Memory.wf, unlistedByte]
    | cons c r => simpa [cellsFrom, Memory.wf, unlistedByte] using ih (start + 1)

/-- Every state's memory is in canonical form, so every operation keeps the form. -/
theorem State.memory_wf (s : State) : Memory.wf s.memory = true := cellsFrom_wf 0 s.buf

theorem State.reset_memory_wf : Memory.wf State.reset.memory = true := State.memory_wf _

theorem cellsFrom_read (start : Nat) (l : List Byte) (a : Nat) :
    Memory.read (cellsFrom start l) a = if start ≤ a then l[a - start]? else none := by
  induction l generalizing start with
  | nil => simp [cellsFrom, Memory.read, unlistedByte]
  | cons b r ih =>
    have h := ih (start + 1)
    by_cases hab : start = a
    · subst hab; simp [cellsFrom, Memory.read]
    · have hne : (start == a) = false := by simpa using hab
      simp only [cellsFrom, Memory.read, List.find?_cons, hne] at h ⊢
      rw [h]
      by_cases h1 : start ≤ a
      · have h2 : start + 1 ≤ a := by omega
        have h3 : a - start = (a - (start + 1)) + 1 := by omega
        simp [h1, h2, h3]
      · have h2 : ¬ start + 1 ≤ a := by omega
        simp [h1, h2]

/-- Reading the cells is reading the buffer. -/
theorem State.memory_read (s : State) (a : Nat) : Memory.read s.memory a = memRead s a := by
  simp [State.memory, cellsFrom_read, memRead]

end Sys2Proof.Machine
end

