-- ==== Sys2Proof/Laws/PerInstr.lean ====
section
/-! SUPPORT. Statements about every instruction, made per constructor: the encoder's output has the length of R67. -/

namespace Sys2Proof

/-! ## The parts' lengths -/

theorem Mem.length_bytes (m : Mem) (k : BitVec 3) : (m.bytes k).length = 1 + m.dispLen := by cases m <;> rfl

theorem Rm.length_bytes (x : Rm) (k : BitVec 3) : (x.bytes k).length = 1 + x.dispLen := by
  cases x with
  | reg r => rfl
  | mem m => exact m.length_bytes k

theorem ImmW.length_bytes (im : ImmW) : im.bytes.length = im.dataLen := by cases im <;> rfl

theorem ImmSW.length_bytes (im : ImmSW) : im.bytes.length = im.dataLen := by cases im <;> rfl

theorem RegImm.length_bytes (ri : RegImm) : ri.bytes.length + 1 = ri.len := by cases ri <;> rfl

theorem Rm.length_cons (x : Rm) (k : BitVec 3) : (x.bytes k).length + 1 = 2 + x.dispLen := by
  rw [Rm.length_bytes]; omega

theorem Mem.length_cons (m : Mem) (k : BitVec 3) : (m.bytes k).length + 1 = 2 + m.dispLen := by
  rw [Mem.length_bytes]; omega

theorem Rm.length_cons_immSW (x : Rm) (k : BitVec 3) (im : ImmSW) :
    (x.bytes k ++ im.bytes).length + 1 = 2 + x.dispLen + im.dataLen := by
  rw [List.length_append, Rm.length_bytes, ImmSW.length_bytes]; omega

theorem Rm.length_cons_immW (x : Rm) (k : BitVec 3) (im : ImmW) :
    (x.bytes k ++ im.bytes).length + 1 = 2 + x.dispLen + im.dataLen := by
  rw [List.length_append, Rm.length_bytes, ImmW.length_bytes]; omega

theorem ImmW.length_cons (im : ImmW) : im.bytes.length + 1 = 1 + im.dataLen := by
  rw [ImmW.length_bytes]; omega

namespace Laws.EncodeLength

/-- The encoding of `i` has the length the machine moves the cursor by (R67, R112). -/
def Statement (i : Instr) : Prop := (encode i).length = i.length

/-- A prefix adds one byte on both sides. -/
theorem step_of_body {b : Byte} {i : Instr} (h : Statement i) : (b :: encode i).length = 1 + i.length := by
  rw [List.length_cons, h, Nat.add_comm]

theorem movRmReg (d : Dir) (w : Width) (reg : RegField) (x : Rm) : Statement (.movRmReg d w reg x) := x.length_cons _
theorem movRmImm (x : Rm) (im : ImmW) : Statement (.movRmImm x im) := x.length_cons_immW _ im
theorem movRegImm (ri : RegImm) : Statement (.movRegImm ri) := ri.length_bytes
theorem movAccMem (w : Width) (a : Word) : Statement (.movAccMem w a) := rfl
theorem movMemAcc (w : Width) (a : Word) : Statement (.movMemAcc w a) := rfl
theorem movRmSreg (sr : Sreg) (x : Rm) : Statement (.movRmSreg sr x) := x.length_cons _
theorem movSregRm (sr : Sreg) (x : Rm) : Statement (.movSregRm sr x) := x.length_cons _
theorem pushRm (x : Rm) : Statement (.pushRm x) := x.length_cons _
theorem pushReg (r : RegField) : Statement (.pushReg r) := rfl
theorem pushSreg (sr : Sreg) : Statement (.pushSreg sr) := rfl
theorem popRm (x : Rm) : Statement (.popRm x) := x.length_cons _
theorem popReg (r : RegField) : Statement (.popReg r) := rfl
theorem popSreg (sr : Sreg) : Statement (.popSreg sr) := rfl
theorem xchgRmReg (w : Width) (reg : RegField) (x : Rm) : Statement (.xchgRmReg w reg x) := x.length_cons _
theorem xchgAxReg (r : RegField) : Statement (.xchgAxReg r) := rfl
theorem inPort (w : Width) (p : Byte) : Statement (.inPort w p) := rfl
theorem inDx (w : Width) : Statement (.inDx w) := rfl
theorem outPort (w : Width) (p : Byte) : Statement (.outPort w p) := rfl
theorem outDx (w : Width) : Statement (.outDx w) := rfl
theorem xlat : Statement (.xlat) := rfl
theorem lea (reg : RegField) (m : Mem) : Statement (.lea reg m) := m.length_cons _
theorem lds (reg : RegField) (m : Mem) : Statement (.lds reg m) := m.length_cons _
theorem les (reg : RegField) (m : Mem) : Statement (.les reg m) := m.length_cons _
theorem lahf : Statement (.lahf) := rfl
theorem sahf : Statement (.sahf) := rfl
theorem pushf : Statement (.pushf) := rfl
theorem popf : Statement (.popf) := rfl
theorem addRmReg (d : Dir) (w : Width) (reg : RegField) (x : Rm) : Statement (.addRmReg d w reg x) := x.length_cons _
theorem addRmImm (x : Rm) (im : ImmSW) : Statement (.addRmImm x im) := x.length_cons_immSW _ im
theorem addAccImm (im : ImmW) : Statement (.addAccImm im) := im.length_cons
theorem adcRmReg (d : Dir) (w : Width) (reg : RegField) (x : Rm) : Statement (.adcRmReg d w reg x) := x.length_cons _
theorem adcRmImm (x : Rm) (im : ImmSW) : Statement (.adcRmImm x im) := x.length_cons_immSW _ im
theorem adcAccImm (im : ImmW) : Statement (.adcAccImm im) := im.length_cons
theorem sbbRmReg (d : Dir) (w : Width) (reg : RegField) (x : Rm) : Statement (.sbbRmReg d w reg x) := x.length_cons _
theorem sbbRmImm (x : Rm) (im : ImmSW) : Statement (.sbbRmImm x im) := x.length_cons_immSW _ im
theorem sbbAccImm (im : ImmW) : Statement (.sbbAccImm im) := im.length_cons
theorem subRmReg (d : Dir) (w : Width) (reg : RegField) (x : Rm) : Statement (.subRmReg d w reg x) := x.length_cons _
theorem subRmImm (x : Rm) (im : ImmSW) : Statement (.subRmImm x im) := x.length_cons_immSW _ im
theorem subAccImm (im : ImmW) : Statement (.subAccImm im) := im.length_cons
theorem cmpRmReg (d : Dir) (w : Width) (reg : RegField) (x : Rm) : Statement (.cmpRmReg d w reg x) := x.length_cons _
theorem cmpRmImm (x : Rm) (im : ImmSW) : Statement (.cmpRmImm x im) := x.length_cons_immSW _ im
theorem cmpAccImm (im : ImmW) : Statement (.cmpAccImm im) := im.length_cons
theorem incRm (w : Width) (x : Rm) : Statement (.incRm w x) := x.length_cons _
theorem incReg (r : RegField) : Statement (.incReg r) := rfl
theorem decRm (w : Width) (x : Rm) : Statement (.decRm w x) := x.length_cons _
theorem decReg (r : RegField) : Statement (.decReg r) := rfl
theorem aaa : Statement (.aaa) := rfl
theorem daa : Statement (.daa) := rfl
theorem aas : Statement (.aas) := rfl
theorem das : Statement (.das) := rfl
theorem neg (w : Width) (x : Rm) : Statement (.neg w x) := x.length_cons _
theorem mul (w : Width) (x : Rm) : Statement (.mul w x) := x.length_cons _
theorem imul (w : Width) (x : Rm) : Statement (.imul w x) := x.length_cons _
theorem div (w : Width) (x : Rm) : Statement (.div w x) := x.length_cons _
theorem idiv (w : Width) (x : Rm) : Statement (.idiv w x) := x.length_cons _
theorem aam : Statement (.aam) := rfl
theorem aad : Statement (.aad) := rfl
theorem cbw : Statement (.cbw) := rfl
theorem cwd : Statement (.cwd) := rfl
theorem orRmReg (d : Dir) (w : Width) (reg : RegField) (x : Rm) : Statement (.orRmReg d w reg x) := x.length_cons _
theorem orRmImm (x : Rm) (im : ImmSW) : Statement (.orRmImm x im) := x.length_cons_immSW _ im
theorem orAccImm (im : ImmW) : Statement (.orAccImm im) := im.length_cons
theorem andRmReg (d : Dir) (w : Width) (reg : RegField) (x : Rm) : Statement (.andRmReg d w reg x) := x.length_cons _
theorem andRmImm (x : Rm) (im : ImmSW) : Statement (.andRmImm x im) := x.length_cons_immSW _ im
theorem andAccImm (im : ImmW) : Statement (.andAccImm im) := im.length_cons
theorem xorRmReg (d : Dir) (w : Width) (reg : RegField) (x : Rm) : Statement (.xorRmReg d w reg x) := x.length_cons _
theorem xorRmImm (x : Rm) (im : ImmSW) : Statement (.xorRmImm x im) := x.length_cons_immSW _ im
theorem xorAccImm (im : ImmW) : Statement (.xorAccImm im) := im.length_cons
theorem not (w : Width) (x : Rm) : Statement (.not w x) := x.length_cons _
theorem rol (v : ShiftCount) (w : Width) (x : Rm) : Statement (.rol v w x) := x.length_cons _
theorem ror (v : ShiftCount) (w : Width) (x : Rm) : Statement (.ror v w x) := x.length_cons _
theorem rcl (v : ShiftCount) (w : Width) (x : Rm) : Statement (.rcl v w x) := x.length_cons _
theorem rcr (v : ShiftCount) (w : Width) (x : Rm) : Statement (.rcr v w x) := x.length_cons _
theorem shl (v : ShiftCount) (w : Width) (x : Rm) : Statement (.shl v w x) := x.length_cons _
theorem shr (v : ShiftCount) (w : Width) (x : Rm) : Statement (.shr v w x) := x.length_cons _
theorem sar (v : ShiftCount) (w : Width) (x : Rm) : Statement (.sar v w x) := x.length_cons _
theorem testRmReg (w : Width) (reg : RegField) (x : Rm) : Statement (.testRmReg w reg x) := x.length_cons _
theorem testRmImm (x : Rm) (im : ImmW) : Statement (.testRmImm x im) := x.length_cons_immW _ im
theorem testAccImm (im : ImmW) : Statement (.testAccImm im) := im.length_cons
theorem movs (w : Width) : Statement (.movs w) := rfl
theorem cmps (w : Width) : Statement (.cmps w) := rfl
theorem scas (w : Width) : Statement (.scas w) := rfl
theorem lods (w : Width) : Statement (.lods w) := rfl
theorem stos (w : Width) : Statement (.stos w) := rfl
theorem callNear (disp : Word) : Statement (.callNear disp) := rfl
theorem callRm (x : Rm) : Statement (.callRm x) := x.length_cons _
theorem callFar (off : Word) (sgm : Word) : Statement (.callFar off sgm) := rfl
theorem callFarMem (m : Mem) : Statement (.callFarMem m) := m.length_cons _
theorem jmpNear (disp : Word) : Statement (.jmpNear disp) := rfl
theorem jmpShort (disp : Byte) : Statement (.jmpShort disp) := rfl
theorem jmpRm (x : Rm) : Statement (.jmpRm x) := x.length_cons _
theorem jmpFar (off : Word) (sgm : Word) : Statement (.jmpFar off sgm) := rfl
theorem jmpFarMem (m : Mem) : Statement (.jmpFarMem m) := m.length_cons _
theorem ret : Statement (.ret) := rfl
theorem retImm (n : Word) : Statement (.retImm n) := rfl
theorem retf : Statement (.retf) := rfl
theorem retfImm (n : Word) : Statement (.retfImm n) := rfl
theorem jo (disp : Byte) : Statement (.jo disp) := rfl
theorem jno (disp : Byte) : Statement (.jno disp) := rfl
theorem jb (disp : Byte) : Statement (.jb disp) := rfl
theorem jnb (disp : Byte) : Statement (.jnb disp) := rfl
theorem jz (disp : Byte) : Statement (.jz disp) := rfl
theorem jnz (disp : Byte) : Statement (.jnz disp) := rfl
theorem jbe (disp : Byte) : Statement (.jbe disp) := rfl
theorem ja (disp : Byte) : Statement (.ja disp) := rfl
theorem js (disp : Byte) : Statement (.js disp) := rfl
theorem jns (disp : Byte) : Statement (.jns disp) := rfl
theorem jp (disp : Byte) : Statement (.jp disp) := rfl
theorem jnp (disp : Byte) : Statement (.jnp disp) := rfl
theorem jl (disp : Byte) : Statement (.jl disp) := rfl
theorem jnl (disp : Byte) : Statement (.jnl disp) := rfl
theorem jle (disp : Byte) : Statement (.jle disp) := rfl
theorem jg (disp : Byte) : Statement (.jg disp) := rfl
theorem loop (disp : Byte) : Statement (.loop disp) := rfl
theorem loopz (disp : Byte) : Statement (.loopz disp) := rfl
theorem loopnz (disp : Byte) : Statement (.loopnz disp) := rfl
theorem jcxz (disp : Byte) : Statement (.jcxz disp) := rfl
theorem int (n : Byte) : Statement (.int n) := rfl
theorem int3 : Statement (.int3) := rfl
theorem into : Statement (.into) := rfl
theorem iret : Statement (.iret) := rfl
theorem clc : Statement (.clc) := rfl
theorem cmc : Statement (.cmc) := rfl
theorem stc : Statement (.stc) := rfl
theorem cld : Statement (.cld) := rfl
theorem std : Statement (.std) := rfl
theorem cli : Statement (.cli) := rfl
theorem sti : Statement (.sti) := rfl
theorem hlt : Statement (.hlt) := rfl
theorem wait : Statement (.wait) := rfl
theorem nop : Statement (.nop) := rfl

/-- The statement for every instruction, by induction on the prefixes. -/
theorem all (i : Instr) : Statement i := by
  induction i with
  | movRmReg d w reg x => exact EncodeLength.movRmReg d w reg x
  | movRmImm x im => exact EncodeLength.movRmImm x im
  | movRegImm ri => exact EncodeLength.movRegImm ri
  | movAccMem w a => exact EncodeLength.movAccMem w a
  | movMemAcc w a => exact EncodeLength.movMemAcc w a
  | movRmSreg sr x => exact EncodeLength.movRmSreg sr x
  | movSregRm sr x => exact EncodeLength.movSregRm sr x
  | pushRm x => exact EncodeLength.pushRm x
  | pushReg r => exact EncodeLength.pushReg r
  | pushSreg sr => exact EncodeLength.pushSreg sr
  | popRm x => exact EncodeLength.popRm x
  | popReg r => exact EncodeLength.popReg r
  | popSreg sr => exact EncodeLength.popSreg sr
  | xchgRmReg w reg x => exact EncodeLength.xchgRmReg w reg x
  | xchgAxReg r => exact EncodeLength.xchgAxReg r
  | inPort w p => exact EncodeLength.inPort w p
  | inDx w => exact EncodeLength.inDx w
  | outPort w p => exact EncodeLength.outPort w p
  | outDx w => exact EncodeLength.outDx w
  | xlat => exact EncodeLength.xlat
  | lea reg m => exact EncodeLength.lea reg m
  | lds reg m => exact EncodeLength.lds reg m
  | les reg m => exact EncodeLength.les reg m
  | lahf => exact EncodeLength.lahf
  | sahf => exact EncodeLength.sahf
  | pushf => exact EncodeLength.pushf
  | popf => exact EncodeLength.popf
  | addRmReg d w reg x => exact EncodeLength.addRmReg d w reg x
  | addRmImm x im => exact EncodeLength.addRmImm x im
  | addAccImm im => exact EncodeLength.addAccImm im
  | adcRmReg d w reg x => exact EncodeLength.adcRmReg d w reg x
  | adcRmImm x im => exact EncodeLength.adcRmImm x im
  | adcAccImm im => exact EncodeLength.adcAccImm im
  | sbbRmReg d w reg x => exact EncodeLength.sbbRmReg d w reg x
  | sbbRmImm x im => exact EncodeLength.sbbRmImm x im
  | sbbAccImm im => exact EncodeLength.sbbAccImm im
  | subRmReg d w reg x => exact EncodeLength.subRmReg d w reg x
  | subRmImm x im => exact EncodeLength.subRmImm x im
  | subAccImm im => exact EncodeLength.subAccImm im
  | cmpRmReg d w reg x => exact EncodeLength.cmpRmReg d w reg x
  | cmpRmImm x im => exact EncodeLength.cmpRmImm x im
  | cmpAccImm im => exact EncodeLength.cmpAccImm im
  | incRm w x => exact EncodeLength.incRm w x
  | incReg r => exact EncodeLength.incReg r
  | decRm w x => exact EncodeLength.decRm w x
  | decReg r => exact EncodeLength.decReg r
  | aaa => exact EncodeLength.aaa
  | daa => exact EncodeLength.daa
  | aas => exact EncodeLength.aas
  | das => exact EncodeLength.das
  | neg w x => exact EncodeLength.neg w x
  | mul w x => exact EncodeLength.mul w x
  | imul w x => exact EncodeLength.imul w x
  | div w x => exact EncodeLength.div w x
  | idiv w x => exact EncodeLength.idiv w x
  | aam => exact EncodeLength.aam
  | aad => exact EncodeLength.aad
  | cbw => exact EncodeLength.cbw
  | cwd => exact EncodeLength.cwd
  | orRmReg d w reg x => exact EncodeLength.orRmReg d w reg x
  | orRmImm x im => exact EncodeLength.orRmImm x im
  | orAccImm im => exact EncodeLength.orAccImm im
  | andRmReg d w reg x => exact EncodeLength.andRmReg d w reg x
  | andRmImm x im => exact EncodeLength.andRmImm x im
  | andAccImm im => exact EncodeLength.andAccImm im
  | xorRmReg d w reg x => exact EncodeLength.xorRmReg d w reg x
  | xorRmImm x im => exact EncodeLength.xorRmImm x im
  | xorAccImm im => exact EncodeLength.xorAccImm im
  | not w x => exact EncodeLength.not w x
  | rol v w x => exact EncodeLength.rol v w x
  | ror v w x => exact EncodeLength.ror v w x
  | rcl v w x => exact EncodeLength.rcl v w x
  | rcr v w x => exact EncodeLength.rcr v w x
  | shl v w x => exact EncodeLength.shl v w x
  | shr v w x => exact EncodeLength.shr v w x
  | sar v w x => exact EncodeLength.sar v w x
  | testRmReg w reg x => exact EncodeLength.testRmReg w reg x
  | testRmImm x im => exact EncodeLength.testRmImm x im
  | testAccImm im => exact EncodeLength.testAccImm im
  | movs w => exact EncodeLength.movs w
  | cmps w => exact EncodeLength.cmps w
  | scas w => exact EncodeLength.scas w
  | lods w => exact EncodeLength.lods w
  | stos w => exact EncodeLength.stos w
  | rep body ih => exact step_of_body ih
  | repne body ih => exact step_of_body ih
  | callNear disp => exact EncodeLength.callNear disp
  | callRm x => exact EncodeLength.callRm x
  | callFar off sgm => exact EncodeLength.callFar off sgm
  | callFarMem m => exact EncodeLength.callFarMem m
  | jmpNear disp => exact EncodeLength.jmpNear disp
  | jmpShort disp => exact EncodeLength.jmpShort disp
  | jmpRm x => exact EncodeLength.jmpRm x
  | jmpFar off sgm => exact EncodeLength.jmpFar off sgm
  | jmpFarMem m => exact EncodeLength.jmpFarMem m
  | ret => exact EncodeLength.ret
  | retImm n => exact EncodeLength.retImm n
  | retf => exact EncodeLength.retf
  | retfImm n => exact EncodeLength.retfImm n
  | jo disp => exact EncodeLength.jo disp
  | jno disp => exact EncodeLength.jno disp
  | jb disp => exact EncodeLength.jb disp
  | jnb disp => exact EncodeLength.jnb disp
  | jz disp => exact EncodeLength.jz disp
  | jnz disp => exact EncodeLength.jnz disp
  | jbe disp => exact EncodeLength.jbe disp
  | ja disp => exact EncodeLength.ja disp
  | js disp => exact EncodeLength.js disp
  | jns disp => exact EncodeLength.jns disp
  | jp disp => exact EncodeLength.jp disp
  | jnp disp => exact EncodeLength.jnp disp
  | jl disp => exact EncodeLength.jl disp
  | jnl disp => exact EncodeLength.jnl disp
  | jle disp => exact EncodeLength.jle disp
  | jg disp => exact EncodeLength.jg disp
  | loop disp => exact EncodeLength.loop disp
  | loopz disp => exact EncodeLength.loopz disp
  | loopnz disp => exact EncodeLength.loopnz disp
  | jcxz disp => exact EncodeLength.jcxz disp
  | int n => exact EncodeLength.int n
  | int3 => exact EncodeLength.int3
  | into => exact EncodeLength.into
  | iret => exact EncodeLength.iret
  | clc => exact EncodeLength.clc
  | cmc => exact EncodeLength.cmc
  | stc => exact EncodeLength.stc
  | cld => exact EncodeLength.cld
  | std => exact EncodeLength.std
  | cli => exact EncodeLength.cli
  | sti => exact EncodeLength.sti
  | hlt => exact EncodeLength.hlt
  | wait => exact EncodeLength.wait
  | lock body ih => exact step_of_body ih
  | seg sr body ih => exact step_of_body ih
  | nop => exact EncodeLength.nop

theorem rep (body : Instr) : Statement (.rep body) := all _
theorem repne (body : Instr) : Statement (.repne body) := all _
theorem lock (body : Instr) : Statement (.lock body) := all _
theorem seg (sr : Sreg) (body : Instr) : Statement (.seg sr body) := all _

end Laws.EncodeLength

/-- The encoder's length is the decoder's (R67). -/
theorem length_encode (i : Instr) : (encode i).length = i.length := Laws.EncodeLength.all i

/-- No instruction is empty (R67). -/
theorem length_pos (i : Instr) : 1 ≤ i.length := by
  rw [← length_encode]
  cases i <;> exact Nat.le_add_left _ _

end Sys2Proof
end

