-- ==== Sys2Proof/Laws/Routines.lean ====
section
/-! SUPPORT. The form routines on encodings: each reads back the instruction whose bytes it is given, with or without a
segment latch (R136 to R158), and what the prefix phase answers on a `BodyPrefix`. -/

namespace Sys2Proof

open Machine

/-! ## The prefix phase -/

/-- The segment latch a `BodyPrefix` at offset `st` sets (R28, R115). -/
def BodyPrefix.latch (p : BodyPrefix) (st : Nat) : Option SegLatch :=
  p.seg.map fun sr => ⟨sr, st + (if p.lock then 1 else 0), (match sr with | .es => 0x26#8 | .cs => 0x2E#8 | .ss => 0x36#8 | .ds => 0x3E#8)⟩

/-- A byte that is no prefix is none of the three kinds. -/
theorem not_prefix_cases (b : Byte) (h : isPrefixByte b = false) :
    b ≠ 0xF0#8 ∧ isSegByte b = false ∧ isRepByte b = false := by
  simpa [isPrefixByte, or_assoc, and_assoc, and_comm, and_left_comm] using h

/-- The prefix phase on a `BodyPrefix` and an opcode byte (R113). -/
theorem prefixPhase_body (p : BodyPrefix) (b : Byte) (hb : isPrefixByte b = false) (st : Nat) (r : List Byte) :
    prefixPhase ⟨st, st, p.bytes ++ b :: r⟩ = .ok ((⟨p.lock, BodyPrefix.latch p st, none⟩, ⟨b, st + p.count⟩), ⟨st, st + p.count + 1, r⟩) := by
  obtain ⟨h1, h2, h3⟩ := not_prefix_cases b hb
  obtain ⟨l, sg⟩ := p
  rcases l with _ | _ <;> rcases sg with _ | sr
  · simp [prefixPhase, lockPhase, segPhase, repPhase, BodyPrefix.bytes, BodyPrefix.count, BodyPrefix.latch, Cursor.readLocated, Cursor.readByte, h1, h2, h3, hb, bind, Except.bind, pure, Except.pure]
  · cases sr <;> simp [prefixPhase, lockPhase, segPhase, repPhase, BodyPrefix.bytes, BodyPrefix.count, BodyPrefix.latch, Cursor.readLocated, Cursor.readByte, h1, h2, h3, hb, bind, Except.bind, pure, Except.pure, isSegByte, fieldSr, Sreg.ofBits]
  · simp [prefixPhase, lockPhase, segPhase, repPhase, BodyPrefix.bytes, BodyPrefix.count, BodyPrefix.latch, Cursor.readLocated, Cursor.readByte, h1, h2, h3, hb, bind, Except.bind, pure, Except.pure]
  · cases sr <;> simp [prefixPhase, lockPhase, segPhase, repPhase, BodyPrefix.bytes, BodyPrefix.count, BodyPrefix.latch, Cursor.readLocated, Cursor.readByte, h1, h2, h3, hb, bind, Except.bind, pure, Except.pure, isSegByte, fieldSr, Sreg.ofBits, Nat.add_assoc]

/-! ## The routines -/

/-- The first byte of `i` selects a routine that reads the rest of `i` back. -/
def ReadsBack (i : Instr) : Prop :=
  ∃ b r t, i.encode = b :: r ∧ isPrefixByte b = false ∧ dispatch b = some t ∧ isStringByte b = i.isStringOp ∧
    ∀ sg st o p tail, (sg.isSome = true → i.hasMem = true) →
      routine t ⟨b, o⟩ sg ⟨st, p, r ++ tail⟩ = .ok (i, ⟨st, p + (i.length - 1), tail⟩)

theorem readsBack_rmRegD (d : Dir) (w : Width) (reg : RegField) (x : Rm) (hx : x.wf = true) (mk : Dir → Width → RegField → Rm → Instr) (b : Byte)
    (he : (mk d w reg x).encode = b :: x.bytes reg) (hl : (mk d w reg x).length = 2 + x.dispLen)
    (hp : isPrefixByte b = false) (hd : dispatch b = some (.regMemToFromReg (.rmRegD mk))) (hs : isStringByte b = (mk d w reg x).isStringOp)
    (hm : (mk d w reg x).hasMem = x.isMem) (fd : fieldD b = d) (fw : fieldW b = w) : ReadsBack (mk d w reg x) := by
  refine ⟨b, _, _, he, hp, hd, hs, ?_⟩
  intro sg st o p tail hsg
  obtain ⟨M, c, h1, h2, h3, h4, h5⟩ := readModRM_rm x hx reg st p tail
  have hq : segCheck c sg (!M.isReg) = .ok () := segCheck_ok _ _ _ (by rw [h3, ← hm]; simpa using hsg)
  simp [routine, regMemRoutine, h1, hq, h5, hl, fd, fw, h2, bind, Except.bind, pure, Except.pure]; omega

theorem readsBack_rmReg (w : Width) (reg : RegField) (x : Rm) (hx : x.wf = true) (mk : Width → RegField → Rm → Instr) (b : Byte)
    (he : (mk w reg x).encode = b :: x.bytes reg) (hl : (mk w reg x).length = 2 + x.dispLen)
    (hp : isPrefixByte b = false) (hd : dispatch b = some (.regMemToFromReg (.rmReg mk))) (hs : isStringByte b = (mk w reg x).isStringOp)
    (hm : (mk w reg x).hasMem = x.isMem) (fw : fieldW b = w) : ReadsBack (mk w reg x) := by
  refine ⟨b, _, _, he, hp, hd, hs, ?_⟩
  intro sg st o p tail hsg
  obtain ⟨M, c, h1, h2, h3, h4, h5⟩ := readModRM_rm x hx reg st p tail
  have hq : segCheck c sg (!M.isReg) = .ok () := segCheck_ok _ _ _ (by rw [h3, ← hm]; simpa using hsg)
  simp [routine, regMemRoutine, h1, hq, h5, hl, fw, h2, bind, Except.bind, pure, Except.pure]; omega

theorem readsBack_regMem (reg : RegField) (m : Mem) (hx : m.wf = true) (mk : RegField → Mem → Instr) (b : Byte)
    (he : (mk reg m).encode = b :: m.bytes reg) (hl : (mk reg m).length = 2 + m.dispLen)
    (hp : isPrefixByte b = false) (hd : dispatch b = some (.regMemToFromReg (.regMem mk))) (hs : isStringByte b = (mk reg m).isStringOp)
    (hm : (mk reg m).hasMem = true)  : ReadsBack (mk reg m) := by
  refine ⟨b, _, _, he, hp, hd, hs, ?_⟩
  intro sg st o p tail hsg
  obtain ⟨M, c, h1, h2, h3, h4, h5⟩ := readModRM_mem m hx reg st p tail
  have hq : segCheck c sg true = .ok () := segCheck_ok _ _ _ (by simp)
  simp [routine, regMemRoutine, h1, hq, h5, hl, h2, h3, bind, Except.bind, pure, Except.pure]; omega

theorem readsBack_rmSreg (sr : Sreg) (x : Rm) (hx : x.wf = true) (mk : Sreg → Rm → Instr) (b : Byte)
    (he : (mk sr x).encode = b :: x.bytes (0b0#1 ++ sr.bits)) (hl : (mk sr x).length = 2 + x.dispLen)
    (hp : isPrefixByte b = false) (hd : dispatch b = some (.regMemToFromReg (.rmSreg mk))) (hs : isStringByte b = (mk sr x).isStringOp)
    (hm : (mk sr x).hasMem = x.isMem)  : ReadsBack (mk sr x) := by
  refine ⟨b, _, _, he, hp, hd, hs, ?_⟩
  intro sg st o p tail hsg
  obtain ⟨M, c, h1, h2, h3, h4, h5⟩ := readModRM_rm x hx (0b0#1 ++ sr.bits) st p tail
  have hq : segCheck c sg (!M.isReg) = .ok () := segCheck_ok _ _ _ (by rw [h3, ← hm]; simpa using hsg)
  have h6 : (0b0#1 ++ sr.bits : BitVec 3).getLsbD 2 = false := by cases sr <;> rfl
  have h7 : Sreg.ofBits ((0b0#1 ++ sr.bits : BitVec 3).extractLsb' 0 2) = sr := by cases sr <;> rfl
  simp only [routine, regMemRoutine, h1, hq, h5, hl, h2, h6, h7, bind, Except.bind, pure, Except.pure, Bool.false_eq_true, if_false]; simp; omega

theorem readsBack_rmImmSW (x : Rm) (im : ImmSW) (hx : x.wf = true) (g : Group) (k : BitVec 3) (mk : Rm → ImmSW → Instr) (b : Byte)
    (he : (mk x im).encode = b :: (x.bytes k ++ im.bytes)) (hl : (mk x im).length = 2 + x.dispLen + im.dataLen)
    (hp : isPrefixByte b = false) (hd : dispatch b = some (.group g)) (hs : isStringByte b = (mk x im).isStringOp)
    (hm : (mk x im).hasMem = x.isMem) (hg : groupTable g k = some (.immediateToRegMem (.rmImmSW mk))) (fs : fieldS b = im.sBit) (fw : fieldW b = im.width) : ReadsBack (mk x im) := by
  refine ⟨b, _, _, he, hp, hd, hs, ?_⟩
  intro sg st o p tail hsg
  obtain ⟨M, c, h1, h2, h3, h4, h5⟩ := readModRM_rm x hx k st p (im.bytes ++ tail)
  have hq : segCheck c sg (!M.isReg) = .ok () := segCheck_ok _ _ _ (by rw [h3, ← hm]; simpa using hsg)
  simp [routine, immRegMemRoutine, groupRoutine, h1, hq, h5, hl, h2, hg, fs, fw, readImmSW_bytes, bind, Except.bind, pure, Except.pure]; omega

theorem readsBack_rmImmW (x : Rm) (im : ImmW) (hx : x.wf = true) (g : Group) (k : BitVec 3) (mk : Rm → ImmW → Instr) (b : Byte)
    (he : (mk x im).encode = b :: (x.bytes k ++ im.bytes)) (hl : (mk x im).length = 2 + x.dispLen + im.dataLen)
    (hp : isPrefixByte b = false) (hd : dispatch b = some (.group g)) (hs : isStringByte b = (mk x im).isStringOp)
    (hm : (mk x im).hasMem = x.isMem) (hg : groupTable g k = some (.immediateToRegMem (.rmImmW mk))) (fw : fieldW b = im.width) : ReadsBack (mk x im) := by
  refine ⟨b, _, _, he, hp, hd, hs, ?_⟩
  intro sg st o p tail hsg
  obtain ⟨M, c, h1, h2, h3, h4, h5⟩ := readModRM_rm x hx k st p (im.bytes ++ tail)
  have hq : segCheck c sg (!M.isReg) = .ok () := segCheck_ok _ _ _ (by rw [h3, ← hm]; simpa using hsg)
  simp [routine, immRegMemRoutine, groupRoutine, h1, hq, h5, hl, h2, hg, fw, readImmW_bytes, bind, Except.bind, pure, Except.pure]; omega

theorem readsBack_rm (w : Width) (x : Rm) (hx : x.wf = true) (g : Group) (k : BitVec 3) (mk : Width → Rm → Instr) (b : Byte)
    (he : (mk w x).encode = b :: x.bytes k) (hl : (mk w x).length = 2 + x.dispLen)
    (hp : isPrefixByte b = false) (hd : dispatch b = some (.group g)) (hs : isStringByte b = (mk w x).isStringOp)
    (hm : (mk w x).hasMem = x.isMem) (hg : groupTable g k = some (.regMemToFromReg (.rm mk))) (fw : fieldW b = w) : ReadsBack (mk w x) := by
  refine ⟨b, _, _, he, hp, hd, hs, ?_⟩
  intro sg st o p tail hsg
  obtain ⟨M, c, h1, h2, h3, h4, h5⟩ := readModRM_rm x hx k st p tail
  have hq : segCheck c sg (!M.isReg) = .ok () := segCheck_ok _ _ _ (by rw [h3, ← hm]; simpa using hsg)
  simp [routine, regMemRoutine, groupRoutine, h1, hq, h5, hl, h2, hg, fw, bind, Except.bind, pure, Except.pure]; omega

theorem readsBack_rm16 (x : Rm) (hx : x.wf = true) (g : Group) (k : BitVec 3) (mk : Rm → Instr) (b : Byte)
    (he : (mk x).encode = b :: x.bytes k) (hl : (mk x).length = 2 + x.dispLen)
    (hp : isPrefixByte b = false) (hd : dispatch b = some (.group g)) (hs : isStringByte b = (mk x).isStringOp)
    (hm : (mk x).hasMem = x.isMem) (hg : groupTable g k = some (.regMemToFromReg (.rm16 mk)))  : ReadsBack (mk x) := by
  refine ⟨b, _, _, he, hp, hd, hs, ?_⟩
  intro sg st o p tail hsg
  obtain ⟨M, c, h1, h2, h3, h4, h5⟩ := readModRM_rm x hx k st p tail
  have hq : segCheck c sg (!M.isReg) = .ok () := segCheck_ok _ _ _ (by rw [h3, ← hm]; simpa using hsg)
  simp [routine, regMemRoutine, groupRoutine, h1, hq, h5, hl, h2, hg, bind, Except.bind, pure, Except.pure]; omega

theorem readsBack_mem16 (m : Mem) (hx : m.wf = true) (g : Group) (k : BitVec 3) (mk : Mem → Instr) (b : Byte)
    (he : (mk m).encode = b :: m.bytes k) (hl : (mk m).length = 2 + m.dispLen)
    (hp : isPrefixByte b = false) (hd : dispatch b = some (.group g)) (hs : isStringByte b = (mk m).isStringOp)
    (hm : (mk m).hasMem = true) (hg : groupTable g k = some (.regMemToFromReg (.mem16 mk)))  : ReadsBack (mk m) := by
  refine ⟨b, _, _, he, hp, hd, hs, ?_⟩
  intro sg st o p tail hsg
  obtain ⟨M, c, h1, h2, h3, h4, h5⟩ := readModRM_mem m hx k st p tail
  have hq : segCheck c sg true = .ok () := segCheck_ok _ _ _ (by simp)
  simp [routine, regMemRoutine, groupRoutine, h1, hq, h5, hl, h2, h3, hg, bind, Except.bind, pure, Except.pure]; omega

theorem readsBack_shift (v : ShiftCount) (w : Width) (x : Rm) (hx : x.wf = true) (g : Group) (k : BitVec 3) (mk : ShiftCount → Width → Rm → Instr) (b : Byte)
    (he : (mk v w x).encode = b :: x.bytes k) (hl : (mk v w x).length = 2 + x.dispLen)
    (hp : isPrefixByte b = false) (hd : dispatch b = some (.group g)) (hs : isStringByte b = (mk v w x).isStringOp)
    (hm : (mk v w x).hasMem = x.isMem) (hg : groupTable g k = some (.regMemToFromReg (.shift mk))) (fv : fieldV b = v) (fw : fieldW b = w) : ReadsBack (mk v w x) := by
  refine ⟨b, _, _, he, hp, hd, hs, ?_⟩
  intro sg st o p tail hsg
  obtain ⟨M, c, h1, h2, h3, h4, h5⟩ := readModRM_rm x hx k st p tail
  have hq : segCheck c sg (!M.isReg) = .ok () := segCheck_ok _ _ _ (by rw [h3, ← hm]; simpa using hsg)
  simp [routine, regMemRoutine, groupRoutine, h1, hq, h5, hl, h2, hg, fv, fw, bind, Except.bind, pure, Except.pure]; omega

theorem readsBack_accImm (im : ImmW) (mk : ImmW → Instr) (b : Byte)
    (he : (mk im).encode = b :: im.bytes) (hl : (mk im).length = 1 + im.dataLen)
    (hp : isPrefixByte b = false) (hd : dispatch b = some (.immediateToAccumulator (.accImm mk))) (hs : isStringByte b = (mk im).isStringOp)
    (hm : (mk im).hasMem = false) (fw : fieldW b = im.width) : ReadsBack (mk im) := by
  refine ⟨b, _, _, he, hp, hd, hs, ?_⟩
  intro sg st o p tail hsg
  have hq : ∀ c, segCheck c sg false = .ok () := fun c => segCheck_ok _ _ _ (by rw [← hm]; exact hsg)
  simp [routine, accRoutine, noMem, hq, hl, fw, readImmW_bytes, bind, Except.bind, pure, Except.pure]

theorem readsBack_accMem (w : Width) (a : Word) (mk : Width → Word → Instr) (b : Byte)
    (he : (mk w a).encode = b :: wordBytes a) (hl : (mk w a).length = 3)
    (hp : isPrefixByte b = false) (hd : dispatch b = some (.immediateToAccumulator (.accMem mk))) (hs : isStringByte b = (mk w a).isStringOp)
    (hm : (mk w a).hasMem = true) (fw : fieldW b = w) : ReadsBack (mk w a) := by
  refine ⟨b, _, _, he, hp, hd, hs, ?_⟩
  intro sg st o p tail hsg
  have hq : ∀ c, segCheck c sg true = .ok () := fun c => segCheck_ok _ _ _ (by simp)
  simp [routine, accRoutine, hq, hl, fw, bind, Except.bind, pure, Except.pure]

theorem readsBack_regImm (ri : RegImm) (mk : RegImm → Instr) (b : Byte)
    (he : (mk ri).encode = b :: ri.bytes) (hl : (mk ri).length = ri.len)
    (hp : isPrefixByte b = false) (hd : dispatch b = some (.immediateToRegister mk)) (hs : isStringByte b = (mk ri).isStringOp)
    (hm : (mk ri).hasMem = false) (fw : (match ri with | .r8 r _ => fieldRegImmW b = .byte ∧ fieldR b = r | .r16 r _ => fieldRegImmW b = .word ∧ fieldR b = r)) : ReadsBack (mk ri) := by
  refine ⟨b, _, _, he, hp, hd, hs, ?_⟩
  intro sg st o p tail hsg
  have hq : ∀ c, segCheck c sg false = .ok () := fun c => segCheck_ok _ _ _ (by rw [← hm]; exact hsg)
  cases ri <;> obtain ⟨f1, f2⟩ := fw <;> simp [routine, regImmRoutine, noMem, hq, hl, f1, f2, RegImm.bytes, RegImm.len, bind, Except.bind, pure, Except.pure]

theorem readsBack_reg16 (r : RegField) (mk : RegField → Instr) (b : Byte)
    (he : (mk r).encode = b :: []) (hl : (mk r).length = 1)
    (hp : isPrefixByte b = false) (hd : dispatch b = some (.registerOnly mk)) (hs : isStringByte b = (mk r).isStringOp)
    (hm : (mk r).hasMem = false) (fw : fieldR b = r) : ReadsBack (mk r) := by
  refine ⟨b, _, _, he, hp, hd, hs, ?_⟩
  intro sg st o p tail hsg
  have hq : ∀ c, segCheck c sg false = .ok () := fun c => segCheck_ok _ _ _ (by rw [← hm]; exact hsg)
  simp [routine, registerOnlyRoutine, noMem, hq, hl, fw, bind, Except.bind, pure, Except.pure]

theorem readsBack_sreg (sr : Sreg) (mk : Sreg → Instr) (b : Byte)
    (he : (mk sr).encode = b :: []) (hl : (mk sr).length = 1)
    (hp : isPrefixByte b = false) (hd : dispatch b = some (.segmentRegisterOnly mk)) (hs : isStringByte b = (mk sr).isStringOp)
    (hm : (mk sr).hasMem = false) (fw : fieldSr b = sr) : ReadsBack (mk sr) := by
  refine ⟨b, _, _, he, hp, hd, hs, ?_⟩
  intro sg st o p tail hsg
  have hq : ∀ c, segCheck c sg false = .ok () := fun c => segCheck_ok _ _ _ (by rw [← hm]; exact hsg)
  simp [routine, segRegOnlyRoutine, noMem, hq, hl, fw, bind, Except.bind, pure, Except.pure]

theorem readsBack_rel8 (v : Byte) (mk : Byte → Instr) (b : Byte)
    (he : (mk v).encode = b :: [v]) (hl : (mk v).length = 2)
    (hp : isPrefixByte b = false) (hd : dispatch b = some (.shortJump mk)) (hs : isStringByte b = (mk v).isStringOp)
    (hm : (mk v).hasMem = false)  : ReadsBack (mk v) := by
  refine ⟨b, _, _, he, hp, hd, hs, ?_⟩
  intro sg st o p tail hsg
  have hq : ∀ c, segCheck c sg false = .ok () := fun c => segCheck_ok _ _ _ (by rw [← hm]; exact hsg)
  simp [routine, shortJumpRoutine, noMem, hq, hl, bind, Except.bind, pure, Except.pure]

theorem readsBack_imm8 (v : Byte) (mk : Byte → Instr) (b : Byte)
    (he : (mk v).encode = b :: [v]) (hl : (mk v).length = 2)
    (hp : isPrefixByte b = false) (hd : dispatch b = some (.other (.imm8 mk))) (hs : isStringByte b = (mk v).isStringOp)
    (hm : (mk v).hasMem = false)  : ReadsBack (mk v) := by
  refine ⟨b, _, _, he, hp, hd, hs, ?_⟩
  intro sg st o p tail hsg
  have hq : ∀ c, segCheck c sg false = .ok () := fun c => segCheck_ok _ _ _ (by rw [← hm]; exact hsg)
  simp [routine, otherRoutine, noMem, hq, hl, bind, Except.bind, pure, Except.pure]

theorem readsBack_rel16 (v : Word) (mk : Word → Instr) (b : Byte)
    (he : (mk v).encode = b :: wordBytes v) (hl : (mk v).length = 3)
    (hp : isPrefixByte b = false) (hd : dispatch b = some (.nearProcLabel mk)) (hs : isStringByte b = (mk v).isStringOp)
    (hm : (mk v).hasMem = false)  : ReadsBack (mk v) := by
  refine ⟨b, _, _, he, hp, hd, hs, ?_⟩
  intro sg st o p tail hsg
  have hq : ∀ c, segCheck c sg false = .ok () := fun c => segCheck_ok _ _ _ (by rw [← hm]; exact hsg)
  simp [routine, nearRoutine, noMem, hq, hl, bind, Except.bind, pure, Except.pure]

theorem readsBack_imm16 (v : Word) (mk : Word → Instr) (b : Byte)
    (he : (mk v).encode = b :: wordBytes v) (hl : (mk v).length = 3)
    (hp : isPrefixByte b = false) (hd : dispatch b = some (.other (.imm16 mk))) (hs : isStringByte b = (mk v).isStringOp)
    (hm : (mk v).hasMem = false)  : ReadsBack (mk v) := by
  refine ⟨b, _, _, he, hp, hd, hs, ?_⟩
  intro sg st o p tail hsg
  have hq : ∀ c, segCheck c sg false = .ok () := fun c => segCheck_ok _ _ _ (by rw [← hm]; exact hsg)
  simp [routine, otherRoutine, noMem, hq, hl, bind, Except.bind, pure, Except.pure]

theorem readsBack_farPtr (u v : Word) (mk : Word → Word → Instr) (b : Byte)
    (he : (mk u v).encode = b :: (wordBytes u ++ wordBytes v)) (hl : (mk u v).length = 5)
    (hp : isPrefixByte b = false) (hd : dispatch b = some (.farProcLabel mk)) (hs : isStringByte b = (mk u v).isStringOp)
    (hm : (mk u v).hasMem = false)  : ReadsBack (mk u v) := by
  refine ⟨b, _, _, he, hp, hd, hs, ?_⟩
  intro sg st o p tail hsg
  have hq : ∀ c, segCheck c sg false = .ok () := fun c => segCheck_ok _ _ _ (by rw [← hm]; exact hsg)
  simp [routine, farRoutine, noMem, hq, hl, bind, Except.bind, pure, Except.pure]

theorem readsBack_port8 (w : Width) (v : Byte) (mk : Width → Byte → Instr) (b : Byte)
    (he : (mk w v).encode = b :: [v]) (hl : (mk w v).length = 2)
    (hp : isPrefixByte b = false) (hd : dispatch b = some (.immediateToAccumulator (.port8 mk))) (hs : isStringByte b = (mk w v).isStringOp)
    (hm : (mk w v).hasMem = false) (fw : fieldW b = w) : ReadsBack (mk w v) := by
  refine ⟨b, _, _, he, hp, hd, hs, ?_⟩
  intro sg st o p tail hsg
  have hq : ∀ c, segCheck c sg false = .ok () := fun c => segCheck_ok _ _ _ (by rw [← hm]; exact hsg)
  simp [routine, accRoutine, noMem, hq, hl, fw, bind, Except.bind, pure, Except.pure]

theorem readsBack_portDx (w : Width) (mk : Width → Instr) (b : Byte)
    (he : (mk w).encode = b :: []) (hl : (mk w).length = 1)
    (hp : isPrefixByte b = false) (hd : dispatch b = some (.noOperand (.portDx mk))) (hs : isStringByte b = (mk w).isStringOp)
    (hm : (mk w).hasMem = false) (fw : fieldW b = w) : ReadsBack (mk w) := by
  refine ⟨b, _, _, he, hp, hd, hs, ?_⟩
  intro sg st o p tail hsg
  have hq : ∀ c, segCheck c sg false = .ok () := fun c => segCheck_ok _ _ _ (by rw [← hm]; exact hsg)
  simp [routine, noOperandRoutine, noMem, hq, hl, fw, bind, Except.bind, pure, Except.pure]

theorem readsBack_str (w : Width) (mk : Width → Instr) (b : Byte)
    (he : (mk w).encode = b :: []) (hl : (mk w).length = 1)
    (hp : isPrefixByte b = false) (hd : dispatch b = some (.noOperand (.str mk))) (hs : isStringByte b = (mk w).isStringOp)
    (hm : (mk w).hasMem = false) (fw : fieldW b = w) : ReadsBack (mk w) := by
  refine ⟨b, _, _, he, hp, hd, hs, ?_⟩
  intro sg st o p tail hsg
  have hq : ∀ c, segCheck c sg false = .ok () := fun c => segCheck_ok _ _ _ (by rw [← hm]; exact hsg)
  simp [routine, noOperandRoutine, noMem, hq, hl, fw, bind, Except.bind, pure, Except.pure]

theorem readsBack_bare  (mk : Instr) (b : Byte)
    (he : (mk).encode = b :: []) (hl : (mk).length = 1)
    (hp : isPrefixByte b = false) (hd : dispatch b = some (.noOperand (.bare mk))) (hs : isStringByte b = (mk).isStringOp)
    (hm : (mk).hasMem = false)  : ReadsBack (mk) := by
  refine ⟨b, _, _, he, hp, hd, hs, ?_⟩
  intro sg st o p tail hsg
  have hq : ∀ c, segCheck c sg false = .ok () := fun c => segCheck_ok _ _ _ (by rw [← hm]; exact hsg)
  simp [routine, noOperandRoutine, noMem, hq, hl, bind, Except.bind, pure, Except.pure]

theorem readsBack_aa  (mk : Instr) (b : Byte)
    (he : (mk).encode = b :: [0x0A#8]) (hl : (mk).length = 2)
    (hp : isPrefixByte b = false) (hd : dispatch b = some (.other (.aa mk))) (hs : isStringByte b = (mk).isStringOp)
    (hm : (mk).hasMem = false)  : ReadsBack (mk) := by
  refine ⟨b, _, _, he, hp, hd, hs, ?_⟩
  intro sg st o p tail hsg
  have hq : ∀ c, segCheck c sg false = .ok () := fun c => segCheck_ok _ _ _ (by rw [← hm]; exact hsg)
  simp [routine, otherRoutine, noMem, hq, hl, Cursor.readLocated, bind, Except.bind, pure, Except.pure]

/-- The encoding of every well-formed instruction without a prefix is read back by the routine of its first byte (R118). -/
theorem readsBack_of_plain (i : Instr) (h : i.wf = true) (hp : i.isPrefixed = false) : ReadsBack i := by
  cases i with
  | movRmReg d w reg x =>
    cases d <;> cases w <;> exact readsBack_rmRegD _ _ _ _ h _ _ rfl rfl rfl rfl rfl rfl rfl rfl
  | movRmImm x im =>
    cases im <;>
      exact readsBack_rmImmW _ _ h _ _ _ _ rfl rfl (by simp only [ImmW.width]; rfl) (by simp only [ImmW.width]; rfl) (by simp only [ImmW.width]; rfl) rfl rfl (by simp only [ImmW.width]; rfl)
  | movRegImm ri =>
    rcases ri with ⟨r, v⟩ | ⟨r, v⟩ <;> (rcases regField_cases r with rfl | rfl | rfl | rfl | rfl | rfl | rfl | rfl) <;>
      exact readsBack_regImm _ _ _ rfl rfl (by simp only [RegImm.opBits]; rfl) (by simp only [RegImm.opBits]; rfl) (by simp only [RegImm.opBits]; rfl) rfl (by simp only [RegImm.opBits]; exact ⟨rfl, rfl⟩)
  | movAccMem w a =>
    cases w <;> exact readsBack_accMem _ _ _ _ rfl rfl rfl rfl rfl rfl rfl
  | movMemAcc w a =>
    cases w <;> exact readsBack_accMem _ _ _ _ rfl rfl rfl rfl rfl rfl rfl
  | movRmSreg sr x =>
    exact readsBack_rmSreg _ _ h _ _ rfl rfl rfl rfl rfl rfl
  | movSregRm sr x =>
    exact readsBack_rmSreg _ _ h _ _ rfl rfl rfl rfl rfl rfl
  | pushRm x =>
    exact readsBack_rm16 _ h _ _ _ _ rfl rfl rfl rfl rfl rfl rfl
  | pushReg r =>
    (rcases regField_cases r with rfl | rfl | rfl | rfl | rfl | rfl | rfl | rfl) <;> exact readsBack_reg16 _ _ _ rfl rfl rfl rfl rfl rfl rfl
  | pushSreg sr =>
    cases sr <;> first | exact readsBack_sreg _ _ _ rfl rfl rfl rfl rfl rfl rfl | exact absurd h (by decide)
  | popRm x =>
    exact readsBack_rm16 _ h _ _ _ _ rfl rfl rfl rfl rfl rfl rfl
  | popReg r =>
    (rcases regField_cases r with rfl | rfl | rfl | rfl | rfl | rfl | rfl | rfl) <;> exact readsBack_reg16 _ _ _ rfl rfl rfl rfl rfl rfl rfl
  | popSreg sr =>
    cases sr <;> first | exact readsBack_sreg _ _ _ rfl rfl rfl rfl rfl rfl rfl | exact absurd h (by decide)
  | xchgRmReg w reg x =>
    cases w <;> exact readsBack_rmReg _ _ _ h _ _ rfl rfl rfl rfl rfl rfl rfl
  | xchgAxReg r =>
    (rcases regField_cases r with rfl | rfl | rfl | rfl | rfl | rfl | rfl | rfl) <;> first | exact readsBack_reg16 _ _ _ rfl rfl rfl rfl rfl rfl rfl | exact absurd h (by decide)
  | inPort w p =>
    cases w <;> exact readsBack_port8 _ _ _ _ rfl rfl rfl rfl rfl rfl rfl
  | inDx w =>
    cases w <;> exact readsBack_portDx _ _ _ rfl rfl rfl rfl rfl rfl rfl
  | outPort w p =>
    cases w <;> exact readsBack_port8 _ _ _ _ rfl rfl rfl rfl rfl rfl rfl
  | outDx w =>
    cases w <;> exact readsBack_portDx _ _ _ rfl rfl rfl rfl rfl rfl rfl
  | xlat =>
    exact readsBack_bare _ _ rfl rfl rfl rfl rfl rfl
  | lea reg m =>
    exact readsBack_regMem _ _ h _ _ rfl rfl rfl rfl rfl rfl
  | lds reg m =>
    exact readsBack_regMem _ _ h _ _ rfl rfl rfl rfl rfl rfl
  | les reg m =>
    exact readsBack_regMem _ _ h _ _ rfl rfl rfl rfl rfl rfl
  | lahf =>
    exact readsBack_bare _ _ rfl rfl rfl rfl rfl rfl
  | sahf =>
    exact readsBack_bare _ _ rfl rfl rfl rfl rfl rfl
  | pushf =>
    exact readsBack_bare _ _ rfl rfl rfl rfl rfl rfl
  | popf =>
    exact readsBack_bare _ _ rfl rfl rfl rfl rfl rfl
  | addRmReg d w reg x =>
    cases d <;> cases w <;> exact readsBack_rmRegD _ _ _ _ h _ _ rfl rfl rfl rfl rfl rfl rfl rfl
  | addRmImm x im =>
    rcases im with ⟨s, v⟩ | ⟨v⟩ | ⟨v⟩
    · cases s <;> exact readsBack_rmImmSW _ _ h _ _ _ _ rfl rfl (by simp only [ImmSW.swBits, ImmSW.width, ImmSW.sBit]; rfl) (by simp only [ImmSW.swBits, ImmSW.width, ImmSW.sBit]; rfl) (by simp only [ImmSW.swBits, ImmSW.width, ImmSW.sBit]; rfl) rfl rfl (by simp only [ImmSW.swBits, ImmSW.width, ImmSW.sBit]; rfl) (by simp only [ImmSW.swBits, ImmSW.width, ImmSW.sBit]; rfl)
    all_goals exact readsBack_rmImmSW _ _ h _ _ _ _ rfl rfl (by simp only [ImmSW.swBits, ImmSW.width, ImmSW.sBit]; rfl) (by simp only [ImmSW.swBits, ImmSW.width, ImmSW.sBit]; rfl) (by simp only [ImmSW.swBits, ImmSW.width, ImmSW.sBit]; rfl) rfl rfl (by simp only [ImmSW.swBits, ImmSW.width, ImmSW.sBit]; rfl) (by simp only [ImmSW.swBits, ImmSW.width, ImmSW.sBit]; rfl)
  | addAccImm im =>
    cases im <;>
      exact readsBack_accImm _ _ _ rfl rfl (by simp only [ImmW.width]; rfl) (by simp only [ImmW.width]; rfl) (by simp only [ImmW.width]; rfl) rfl (by simp only [ImmW.width]; rfl)
  | adcRmReg d w reg x =>
    cases d <;> cases w <;> exact readsBack_rmRegD _ _ _ _ h _ _ rfl rfl rfl rfl rfl rfl rfl rfl
  | adcRmImm x im =>
    rcases im with ⟨s, v⟩ | ⟨v⟩ | ⟨v⟩
    · cases s <;> exact readsBack_rmImmSW _ _ h _ _ _ _ rfl rfl (by simp only [ImmSW.swBits, ImmSW.width, ImmSW.sBit]; rfl) (by simp only [ImmSW.swBits, ImmSW.width, ImmSW.sBit]; rfl) (by simp only [ImmSW.swBits, ImmSW.width, ImmSW.sBit]; rfl) rfl rfl (by simp only [ImmSW.swBits, ImmSW.width, ImmSW.sBit]; rfl) (by simp only [ImmSW.swBits, ImmSW.width, ImmSW.sBit]; rfl)
    all_goals exact readsBack_rmImmSW _ _ h _ _ _ _ rfl rfl (by simp only [ImmSW.swBits, ImmSW.width, ImmSW.sBit]; rfl) (by simp only [ImmSW.swBits, ImmSW.width, ImmSW.sBit]; rfl) (by simp only [ImmSW.swBits, ImmSW.width, ImmSW.sBit]; rfl) rfl rfl (by simp only [ImmSW.swBits, ImmSW.width, ImmSW.sBit]; rfl) (by simp only [ImmSW.swBits, ImmSW.width, ImmSW.sBit]; rfl)
  | adcAccImm im =>
    cases im <;>
      exact readsBack_accImm _ _ _ rfl rfl (by simp only [ImmW.width]; rfl) (by simp only [ImmW.width]; rfl) (by simp only [ImmW.width]; rfl) rfl (by simp only [ImmW.width]; rfl)
  | sbbRmReg d w reg x =>
    cases d <;> cases w <;> exact readsBack_rmRegD _ _ _ _ h _ _ rfl rfl rfl rfl rfl rfl rfl rfl
  | sbbRmImm x im =>
    rcases im with ⟨s, v⟩ | ⟨v⟩ | ⟨v⟩
    · cases s <;> exact readsBack_rmImmSW _ _ h _ _ _ _ rfl rfl (by simp only [ImmSW.swBits, ImmSW.width, ImmSW.sBit]; rfl) (by simp only [ImmSW.swBits, ImmSW.width, ImmSW.sBit]; rfl) (by simp only [ImmSW.swBits, ImmSW.width, ImmSW.sBit]; rfl) rfl rfl (by simp only [ImmSW.swBits, ImmSW.width, ImmSW.sBit]; rfl) (by simp only [ImmSW.swBits, ImmSW.width, ImmSW.sBit]; rfl)
    all_goals exact readsBack_rmImmSW _ _ h _ _ _ _ rfl rfl (by simp only [ImmSW.swBits, ImmSW.width, ImmSW.sBit]; rfl) (by simp only [ImmSW.swBits, ImmSW.width, ImmSW.sBit]; rfl) (by simp only [ImmSW.swBits, ImmSW.width, ImmSW.sBit]; rfl) rfl rfl (by simp only [ImmSW.swBits, ImmSW.width, ImmSW.sBit]; rfl) (by simp only [ImmSW.swBits, ImmSW.width, ImmSW.sBit]; rfl)
  | sbbAccImm im =>
    cases im <;>
      exact readsBack_accImm _ _ _ rfl rfl (by simp only [ImmW.width]; rfl) (by simp only [ImmW.width]; rfl) (by simp only [ImmW.width]; rfl) rfl (by simp only [ImmW.width]; rfl)
  | subRmReg d w reg x =>
    cases d <;> cases w <;> exact readsBack_rmRegD _ _ _ _ h _ _ rfl rfl rfl rfl rfl rfl rfl rfl
  | subRmImm x im =>
    rcases im with ⟨s, v⟩ | ⟨v⟩ | ⟨v⟩
    · cases s <;> exact readsBack_rmImmSW _ _ h _ _ _ _ rfl rfl (by simp only [ImmSW.swBits, ImmSW.width, ImmSW.sBit]; rfl) (by simp only [ImmSW.swBits, ImmSW.width, ImmSW.sBit]; rfl) (by simp only [ImmSW.swBits, ImmSW.width, ImmSW.sBit]; rfl) rfl rfl (by simp only [ImmSW.swBits, ImmSW.width, ImmSW.sBit]; rfl) (by simp only [ImmSW.swBits, ImmSW.width, ImmSW.sBit]; rfl)
    all_goals exact readsBack_rmImmSW _ _ h _ _ _ _ rfl rfl (by simp only [ImmSW.swBits, ImmSW.width, ImmSW.sBit]; rfl) (by simp only [ImmSW.swBits, ImmSW.width, ImmSW.sBit]; rfl) (by simp only [ImmSW.swBits, ImmSW.width, ImmSW.sBit]; rfl) rfl rfl (by simp only [ImmSW.swBits, ImmSW.width, ImmSW.sBit]; rfl) (by simp only [ImmSW.swBits, ImmSW.width, ImmSW.sBit]; rfl)
  | subAccImm im =>
    cases im <;>
      exact readsBack_accImm _ _ _ rfl rfl (by simp only [ImmW.width]; rfl) (by simp only [ImmW.width]; rfl) (by simp only [ImmW.width]; rfl) rfl (by simp only [ImmW.width]; rfl)
  | cmpRmReg d w reg x =>
    cases d <;> cases w <;> exact readsBack_rmRegD _ _ _ _ h _ _ rfl rfl rfl rfl rfl rfl rfl rfl
  | cmpRmImm x im =>
    rcases im with ⟨s, v⟩ | ⟨v⟩ | ⟨v⟩
    · cases s <;> exact readsBack_rmImmSW _ _ h _ _ _ _ rfl rfl (by simp only [ImmSW.swBits, ImmSW.width, ImmSW.sBit]; rfl) (by simp only [ImmSW.swBits, ImmSW.width, ImmSW.sBit]; rfl) (by simp only [ImmSW.swBits, ImmSW.width, ImmSW.sBit]; rfl) rfl rfl (by simp only [ImmSW.swBits, ImmSW.width, ImmSW.sBit]; rfl) (by simp only [ImmSW.swBits, ImmSW.width, ImmSW.sBit]; rfl)
    all_goals exact readsBack_rmImmSW _ _ h _ _ _ _ rfl rfl (by simp only [ImmSW.swBits, ImmSW.width, ImmSW.sBit]; rfl) (by simp only [ImmSW.swBits, ImmSW.width, ImmSW.sBit]; rfl) (by simp only [ImmSW.swBits, ImmSW.width, ImmSW.sBit]; rfl) rfl rfl (by simp only [ImmSW.swBits, ImmSW.width, ImmSW.sBit]; rfl) (by simp only [ImmSW.swBits, ImmSW.width, ImmSW.sBit]; rfl)
  | cmpAccImm im =>
    cases im <;>
      exact readsBack_accImm _ _ _ rfl rfl (by simp only [ImmW.width]; rfl) (by simp only [ImmW.width]; rfl) (by simp only [ImmW.width]; rfl) rfl (by simp only [ImmW.width]; rfl)
  | incRm w x =>
    cases w <;> exact readsBack_rm _ _ h _ _ _ _ rfl rfl rfl rfl rfl rfl rfl rfl
  | incReg r =>
    (rcases regField_cases r with rfl | rfl | rfl | rfl | rfl | rfl | rfl | rfl) <;> exact readsBack_reg16 _ _ _ rfl rfl rfl rfl rfl rfl rfl
  | decRm w x =>
    cases w <;> exact readsBack_rm _ _ h _ _ _ _ rfl rfl rfl rfl rfl rfl rfl rfl
  | decReg r =>
    (rcases regField_cases r with rfl | rfl | rfl | rfl | rfl | rfl | rfl | rfl) <;> exact readsBack_reg16 _ _ _ rfl rfl rfl rfl rfl rfl rfl
  | aaa =>
    exact readsBack_bare _ _ rfl rfl rfl rfl rfl rfl
  | daa =>
    exact readsBack_bare _ _ rfl rfl rfl rfl rfl rfl
  | aas =>
    exact readsBack_bare _ _ rfl rfl rfl rfl rfl rfl
  | das =>
    exact readsBack_bare _ _ rfl rfl rfl rfl rfl rfl
  | neg w x =>
    cases w <;> exact readsBack_rm _ _ h _ _ _ _ rfl rfl rfl rfl rfl rfl rfl rfl
  | mul w x =>
    cases w <;> exact readsBack_rm _ _ h _ _ _ _ rfl rfl rfl rfl rfl rfl rfl rfl
  | imul w x =>
    cases w <;> exact readsBack_rm _ _ h _ _ _ _ rfl rfl rfl rfl rfl rfl rfl rfl
  | div w x =>
    cases w <;> exact readsBack_rm _ _ h _ _ _ _ rfl rfl rfl rfl rfl rfl rfl rfl
  | idiv w x =>
    cases w <;> exact readsBack_rm _ _ h _ _ _ _ rfl rfl rfl rfl rfl rfl rfl rfl
  | aam =>
    exact readsBack_aa _ _ rfl rfl rfl rfl rfl rfl
  | aad =>
    exact readsBack_aa _ _ rfl rfl rfl rfl rfl rfl
  | cbw =>
    exact readsBack_bare _ _ rfl rfl rfl rfl rfl rfl
  | cwd =>
    exact readsBack_bare _ _ rfl rfl rfl rfl rfl rfl
  | orRmReg d w reg x =>
    cases d <;> cases w <;> exact readsBack_rmRegD _ _ _ _ h _ _ rfl rfl rfl rfl rfl rfl rfl rfl
  | orRmImm x im =>
    rcases im with ⟨s, v⟩ | ⟨v⟩ | ⟨v⟩
    · cases s <;> exact readsBack_rmImmSW _ _ h _ _ _ _ rfl rfl (by simp only [ImmSW.swBits, ImmSW.width, ImmSW.sBit]; rfl) (by simp only [ImmSW.swBits, ImmSW.width, ImmSW.sBit]; rfl) (by simp only [ImmSW.swBits, ImmSW.width, ImmSW.sBit]; rfl) rfl rfl (by simp only [ImmSW.swBits, ImmSW.width, ImmSW.sBit]; rfl) (by simp only [ImmSW.swBits, ImmSW.width, ImmSW.sBit]; rfl)
    all_goals exact readsBack_rmImmSW _ _ h _ _ _ _ rfl rfl (by simp only [ImmSW.swBits, ImmSW.width, ImmSW.sBit]; rfl) (by simp only [ImmSW.swBits, ImmSW.width, ImmSW.sBit]; rfl) (by simp only [ImmSW.swBits, ImmSW.width, ImmSW.sBit]; rfl) rfl rfl (by simp only [ImmSW.swBits, ImmSW.width, ImmSW.sBit]; rfl) (by simp only [ImmSW.swBits, ImmSW.width, ImmSW.sBit]; rfl)
  | orAccImm im =>
    cases im <;>
      exact readsBack_accImm _ _ _ rfl rfl (by simp only [ImmW.width]; rfl) (by simp only [ImmW.width]; rfl) (by simp only [ImmW.width]; rfl) rfl (by simp only [ImmW.width]; rfl)
  | andRmReg d w reg x =>
    cases d <;> cases w <;> exact readsBack_rmRegD _ _ _ _ h _ _ rfl rfl rfl rfl rfl rfl rfl rfl
  | andRmImm x im =>
    rcases im with ⟨s, v⟩ | ⟨v⟩ | ⟨v⟩
    · cases s <;> exact readsBack_rmImmSW _ _ h _ _ _ _ rfl rfl (by simp only [ImmSW.swBits, ImmSW.width, ImmSW.sBit]; rfl) (by simp only [ImmSW.swBits, ImmSW.width, ImmSW.sBit]; rfl) (by simp only [ImmSW.swBits, ImmSW.width, ImmSW.sBit]; rfl) rfl rfl (by simp only [ImmSW.swBits, ImmSW.width, ImmSW.sBit]; rfl) (by simp only [ImmSW.swBits, ImmSW.width, ImmSW.sBit]; rfl)
    all_goals exact readsBack_rmImmSW _ _ h _ _ _ _ rfl rfl (by simp only [ImmSW.swBits, ImmSW.width, ImmSW.sBit]; rfl) (by simp only [ImmSW.swBits, ImmSW.width, ImmSW.sBit]; rfl) (by simp only [ImmSW.swBits, ImmSW.width, ImmSW.sBit]; rfl) rfl rfl (by simp only [ImmSW.swBits, ImmSW.width, ImmSW.sBit]; rfl) (by simp only [ImmSW.swBits, ImmSW.width, ImmSW.sBit]; rfl)
  | andAccImm im =>
    cases im <;>
      exact readsBack_accImm _ _ _ rfl rfl (by simp only [ImmW.width]; rfl) (by simp only [ImmW.width]; rfl) (by simp only [ImmW.width]; rfl) rfl (by simp only [ImmW.width]; rfl)
  | xorRmReg d w reg x =>
    cases d <;> cases w <;> exact readsBack_rmRegD _ _ _ _ h _ _ rfl rfl rfl rfl rfl rfl rfl rfl
  | xorRmImm x im =>
    rcases im with ⟨s, v⟩ | ⟨v⟩ | ⟨v⟩
    · cases s <;> exact readsBack_rmImmSW _ _ h _ _ _ _ rfl rfl (by simp only [ImmSW.swBits, ImmSW.width, ImmSW.sBit]; rfl) (by simp only [ImmSW.swBits, ImmSW.width, ImmSW.sBit]; rfl) (by simp only [ImmSW.swBits, ImmSW.width, ImmSW.sBit]; rfl) rfl rfl (by simp only [ImmSW.swBits, ImmSW.width, ImmSW.sBit]; rfl) (by simp only [ImmSW.swBits, ImmSW.width, ImmSW.sBit]; rfl)
    all_goals exact readsBack_rmImmSW _ _ h _ _ _ _ rfl rfl (by simp only [ImmSW.swBits, ImmSW.width, ImmSW.sBit]; rfl) (by simp only [ImmSW.swBits, ImmSW.width, ImmSW.sBit]; rfl) (by simp only [ImmSW.swBits, ImmSW.width, ImmSW.sBit]; rfl) rfl rfl (by simp only [ImmSW.swBits, ImmSW.width, ImmSW.sBit]; rfl) (by simp only [ImmSW.swBits, ImmSW.width, ImmSW.sBit]; rfl)
  | xorAccImm im =>
    cases im <;>
      exact readsBack_accImm _ _ _ rfl rfl (by simp only [ImmW.width]; rfl) (by simp only [ImmW.width]; rfl) (by simp only [ImmW.width]; rfl) rfl (by simp only [ImmW.width]; rfl)
  | not w x =>
    cases w <;> exact readsBack_rm _ _ h _ _ _ _ rfl rfl rfl rfl rfl rfl rfl rfl
  | rol v w x =>
    cases v <;> cases w <;> exact readsBack_shift _ _ _ h _ _ _ _ rfl rfl rfl rfl rfl rfl rfl rfl rfl
  | ror v w x =>
    cases v <;> cases w <;> exact readsBack_shift _ _ _ h _ _ _ _ rfl rfl rfl rfl rfl rfl rfl rfl rfl
  | rcl v w x =>
    cases v <;> cases w <;> exact readsBack_shift _ _ _ h _ _ _ _ rfl rfl rfl rfl rfl rfl rfl rfl rfl
  | rcr v w x =>
    cases v <;> cases w <;> exact readsBack_shift _ _ _ h _ _ _ _ rfl rfl rfl rfl rfl rfl rfl rfl rfl
  | shl v w x =>
    cases v <;> cases w <;> exact readsBack_shift _ _ _ h _ _ _ _ rfl rfl rfl rfl rfl rfl rfl rfl rfl
  | shr v w x =>
    cases v <;> cases w <;> exact readsBack_shift _ _ _ h _ _ _ _ rfl rfl rfl rfl rfl rfl rfl rfl rfl
  | sar v w x =>
    cases v <;> cases w <;> exact readsBack_shift _ _ _ h _ _ _ _ rfl rfl rfl rfl rfl rfl rfl rfl rfl
  | testRmReg w reg x =>
    cases w <;> exact readsBack_rmReg _ _ _ h _ _ rfl rfl rfl rfl rfl rfl rfl
  | testRmImm x im =>
    cases im <;>
      exact readsBack_rmImmW _ _ h _ _ _ _ rfl rfl (by simp only [ImmW.width]; rfl) (by simp only [ImmW.width]; rfl) (by simp only [ImmW.width]; rfl) rfl rfl (by simp only [ImmW.width]; rfl)
  | testAccImm im =>
    cases im <;>
      exact readsBack_accImm _ _ _ rfl rfl (by simp only [ImmW.width]; rfl) (by simp only [ImmW.width]; rfl) (by simp only [ImmW.width]; rfl) rfl (by simp only [ImmW.width]; rfl)
  | movs w =>
    cases w <;> exact readsBack_str _ _ _ rfl rfl rfl rfl rfl rfl rfl
  | cmps w =>
    cases w <;> exact readsBack_str _ _ _ rfl rfl rfl rfl rfl rfl rfl
  | scas w =>
    cases w <;> exact readsBack_str _ _ _ rfl rfl rfl rfl rfl rfl rfl
  | lods w =>
    cases w <;> exact readsBack_str _ _ _ rfl rfl rfl rfl rfl rfl rfl
  | stos w =>
    cases w <;> exact readsBack_str _ _ _ rfl rfl rfl rfl rfl rfl rfl
  | rep body => simp [Instr.isPrefixed] at hp
  | repne body => simp [Instr.isPrefixed] at hp
  | callNear disp =>
    exact readsBack_rel16 _ _ _ rfl rfl rfl rfl rfl rfl
  | callRm x =>
    exact readsBack_rm16 _ h _ _ _ _ rfl rfl rfl rfl rfl rfl rfl
  | callFar off sgm =>
    exact readsBack_farPtr _ _ _ _ rfl rfl rfl rfl rfl rfl
  | callFarMem m =>
    exact readsBack_mem16 _ h _ _ _ _ rfl rfl rfl rfl rfl rfl rfl
  | jmpNear disp =>
    exact readsBack_rel16 _ _ _ rfl rfl rfl rfl rfl rfl
  | jmpShort disp =>
    exact readsBack_rel8 _ _ _ rfl rfl rfl rfl rfl rfl
  | jmpRm x =>
    exact readsBack_rm16 _ h _ _ _ _ rfl rfl rfl rfl rfl rfl rfl
  | jmpFar off sgm =>
    exact readsBack_farPtr _ _ _ _ rfl rfl rfl rfl rfl rfl
  | jmpFarMem m =>
    exact readsBack_mem16 _ h _ _ _ _ rfl rfl rfl rfl rfl rfl rfl
  | ret =>
    exact readsBack_bare _ _ rfl rfl rfl rfl rfl rfl
  | retImm n =>
    exact readsBack_imm16 _ _ _ rfl rfl rfl rfl rfl rfl
  | retf =>
    exact readsBack_bare _ _ rfl rfl rfl rfl rfl rfl
  | retfImm n =>
    exact readsBack_imm16 _ _ _ rfl rfl rfl rfl rfl rfl
  | jo disp =>
    exact readsBack_rel8 _ _ _ rfl rfl rfl rfl rfl rfl
  | jno disp =>
    exact readsBack_rel8 _ _ _ rfl rfl rfl rfl rfl rfl
  | jb disp =>
    exact readsBack_rel8 _ _ _ rfl rfl rfl rfl rfl rfl
  | jnb disp =>
    exact readsBack_rel8 _ _ _ rfl rfl rfl rfl rfl rfl
  | jz disp =>
    exact readsBack_rel8 _ _ _ rfl rfl rfl rfl rfl rfl
  | jnz disp =>
    exact readsBack_rel8 _ _ _ rfl rfl rfl rfl rfl rfl
  | jbe disp =>
    exact readsBack_rel8 _ _ _ rfl rfl rfl rfl rfl rfl
  | ja disp =>
    exact readsBack_rel8 _ _ _ rfl rfl rfl rfl rfl rfl
  | js disp =>
    exact readsBack_rel8 _ _ _ rfl rfl rfl rfl rfl rfl
  | jns disp =>
    exact readsBack_rel8 _ _ _ rfl rfl rfl rfl rfl rfl
  | jp disp =>
    exact readsBack_rel8 _ _ _ rfl rfl rfl rfl rfl rfl
  | jnp disp =>
    exact readsBack_rel8 _ _ _ rfl rfl rfl rfl rfl rfl
  | jl disp =>
    exact readsBack_rel8 _ _ _ rfl rfl rfl rfl rfl rfl
  | jnl disp =>
    exact readsBack_rel8 _ _ _ rfl rfl rfl rfl rfl rfl
  | jle disp =>
    exact readsBack_rel8 _ _ _ rfl rfl rfl rfl rfl rfl
  | jg disp =>
    exact readsBack_rel8 _ _ _ rfl rfl rfl rfl rfl rfl
  | loop disp =>
    exact readsBack_rel8 _ _ _ rfl rfl rfl rfl rfl rfl
  | loopz disp =>
    exact readsBack_rel8 _ _ _ rfl rfl rfl rfl rfl rfl
  | loopnz disp =>
    exact readsBack_rel8 _ _ _ rfl rfl rfl rfl rfl rfl
  | jcxz disp =>
    exact readsBack_rel8 _ _ _ rfl rfl rfl rfl rfl rfl
  | int n =>
    exact readsBack_imm8 _ _ _ rfl rfl rfl rfl rfl rfl
  | int3 =>
    exact readsBack_bare _ _ rfl rfl rfl rfl rfl rfl
  | into =>
    exact readsBack_bare _ _ rfl rfl rfl rfl rfl rfl
  | iret =>
    exact readsBack_bare _ _ rfl rfl rfl rfl rfl rfl
  | clc =>
    exact readsBack_bare _ _ rfl rfl rfl rfl rfl rfl
  | cmc =>
    exact readsBack_bare _ _ rfl rfl rfl rfl rfl rfl
  | stc =>
    exact readsBack_bare _ _ rfl rfl rfl rfl rfl rfl
  | cld =>
    exact readsBack_bare _ _ rfl rfl rfl rfl rfl rfl
  | std =>
    exact readsBack_bare _ _ rfl rfl rfl rfl rfl rfl
  | cli =>
    exact readsBack_bare _ _ rfl rfl rfl rfl rfl rfl
  | sti =>
    exact readsBack_bare _ _ rfl rfl rfl rfl rfl rfl
  | hlt =>
    exact readsBack_bare _ _ rfl rfl rfl rfl rfl rfl
  | wait =>
    exact readsBack_bare _ _ rfl rfl rfl rfl rfl rfl
  | lock body => simp [Instr.isPrefixed] at hp
  | seg sr body => simp [Instr.isPrefixed] at hp
  | nop =>
    exact readsBack_bare _ _ rfl rfl rfl rfl rfl rfl

end Sys2Proof
end

