-- ==== Sys2Proof/Laws/Text.lean ====
section
/-! SUPPORT. The texts of a line: what its parts are with a `BodyPrefix` before the instruction, and that every line is
ASCII text without line breaks that is not empty and neither begins nor ends with a space (R27, R159). -/

namespace Sys2Proof.Machine

/-! ## Instructions behind a `BodyPrefix` -/

@[simp] theorem BodyPrefix.length_wrap (p : BodyPrefix) (i : Instr) : (p.wrap i).length = p.count + i.length := by
  rcases p with ⟨_ | _, _ | sr⟩
  · exact (Nat.zero_add _).symm
  · rfl
  · rfl
  · exact (Nat.add_assoc 1 1 i.length).symm

@[simp] theorem BodyPrefix.rowOf_wrap (p : BodyPrefix) (i : Instr) : rowOf (p.wrap i) = rowOf i := by
  rcases p with ⟨_ | _, _ | sr⟩ <;> rfl

/-- An instruction without a prefix sets no latch (R112). -/
theorem Latches.ofPrefixes_plain (i : Instr) (h : i.isPrefixed = false) (L : Latches) : Latches.ofPrefixes i L = L := by
  cases i <;> first | rfl | cases h

/-- The latches of an instruction behind a `BodyPrefix` (R113 to R115, R117). -/
theorem latchesOf_wrap (p : BodyPrefix) (i : Instr) (h : i.isPrefixed = false) (s : State) :
    latchesOf (p.wrap i) s =
      ⟨p.lock, p.seg, none, s.cursor, s.cursor + (p.count + i.length), s.loadBase⟩ := by
  unfold latchesOf
  rw [BodyPrefix.length_wrap]
  rcases p with ⟨_ | _, _ | sr⟩ <;> exact Latches.ofPrefixes_plain i h _

theorem BodyPrefix.lineLead_eq (p : BodyPrefix) (st pos : Nat) (lb : Word) :
    lineLead ⟨p.lock, p.seg, none, st, pos, lb⟩ = p.lead := by
  rcases p with ⟨_ | _, _⟩ <;> rfl

/-- The meaning of an instruction behind a `BodyPrefix`. -/
theorem exec_wrap (p : BodyPrefix) (i : Instr) (s : State) (h : WellFormed (p.wrap i)) (hp : i.isPrefixed = false) :
    exec (p.wrap i) s = .next (s.emit
      (p.lead ++ (rowOf i ⟨p.lock, p.seg, none, s.cursor, s.cursor + (p.count + i.length), s.loadBase⟩).mnemonic ++
        opsText (rowOf i ⟨p.lock, p.seg, none, s.cursor, s.cursor + (p.count + i.length), s.loadBase⟩).ops)
      (s.cursor + (p.count + i.length))) := by
  rw [exec_of_wf s h, BodyPrefix.length_wrap, lineOf, latchesOf_wrap p i hp s, BodyPrefix.rowOf_wrap, render,
    BodyPrefix.lineLead_eq]

/-! ## Operand texts as Safety.lean writes them -/

/-- The qualifier with its space (R161). -/
def Qual.lead : Option Qual → String
  | none   => ""
  | some q => q.text ++ " "

theorem Qual.lead_qualOf (w : Width) : Qual.lead (some (qualOf w)) = sizeText w := by cases w <;> rfl

theorem operandPre_eq (p : BodyPrefix) (q : Option Qual) : operandPre q p.seg = Qual.lead q ++ p.segText := by
  rcases p with ⟨_, _ | sr⟩ <;> [skip; cases sr] <;> cases q <;> rfl

theorem dispText_eq (v : Int) :
    dispText v = if 0 ≤ v then " + " ++ dec v.toNat else " - " ++ dec (-v).toNat := by
  unfold dispText; split <;> split <;> first | rfl | omega

theorem memOperand_text (m : Mem) (q : Option Qual) (L : Latches) (p : BodyPrefix) (h : L.seg = p.seg) :
    (memOperand m q L).text = memText (Qual.lead q) p.segText m := by
  cases m <;> simp [memOperand, Operand.text, h, operandPre_eq, memText, dispText_eq, String.append_assoc]

theorem rmOperand_text (x : Rm) (w : Width) (q : Option Qual) (L : Latches) (p : BodyPrefix) (h : L.seg = p.seg) :
    (rmOperand x w q L).text = rmText (Qual.lead q) p.segText w x := by
  cases x with
  | reg r => cases w <;> rfl
  | mem m => exact memOperand_text m q L p h

theorem rmText_reg (q sg : String) (w : Width) (r : RegField) : rmText q sg w (.reg r) = regName w r := by
  cases w <;> rfl

theorem immWOperand_text (im : ImmW) : (immWOperand im).text = immWText im := by cases im <;> rfl

theorem immSWOperand_text (im : ImmSW) : (immSWOperand im).text = immSWText im := by
  cases im with
  | sext8 v => simp only [immSWOperand, Operand.text, if_true, sdec, immSWText]; split <;> split <;> first | rfl | omega
  | imm8 s v => rfl
  | imm16 v => rfl

theorem opsText_one (a : Operand) : opsText [a] = " " ++ a.text := rfl

theorem opsText_two (a b : Operand) : opsText [a, b] = " " ++ (a.text ++ ", " ++ b.text) := rfl

/-! ## Texts that may stand in a line -/

/-- Every character is plain (R27). -/
def PlainText (t : String) : Prop := ∀ c ∈ t.toList, isPlainChar c = true

/-- Not empty, and no space at either end (R159). -/
def TightText (t : String) : Prop := t.toList ≠ [] ∧ t.toList.head? ≠ some ' ' ∧ t.toList.getLast? ≠ some ' '

/-- A text that may begin and end a line. -/
def GoodText (t : String) : Prop := PlainText t ∧ TightText t

/-- A text that may stand in front of one: empty, or plain and not beginning with a space. -/
def GoodLead (t : String) : Prop := PlainText t ∧ t.toList.head? ≠ some ' '

theorem plainText_iff (t : String) : PlainText t ↔ isPlain t = true := by
  simp [PlainText, isPlain, List.all_eq_true]

theorem PlainText.append {a b : String} (ha : PlainText a) (hb : PlainText b) : PlainText (a ++ b) := by
  intro c hc
  rw [String.toList_append] at hc
  rcases List.mem_append.1 hc with h | h
  · exact ha c h
  · exact hb c h

theorem GoodText.between {a b : String} (m : String) (ha : GoodText a) (hm : PlainText m) (hb : GoodText b) :
    GoodText (a ++ (m ++ b)) := by
  obtain ⟨pa, na, fa, -⟩ := ha
  obtain ⟨pb, nb, -, lb⟩ := hb
  refine ⟨pa.append (hm.append pb), ?_, ?_, ?_⟩ <;> simp only [String.toList_append]
  · simp [na]
  · rw [List.head?_append_of_ne_nil _ na]; exact fa
  · rw [List.getLast?_append_of_ne_nil _ (by simp [nb]), List.getLast?_append_of_ne_nil _ nb]; exact lb

theorem GoodText.append {a b : String} (ha : GoodText a) (hb : GoodText b) : GoodText (a ++ b) := by
  simpa using ha.between "" (by intro c hc; simp at hc) hb

theorem GoodLead.append {a b : String} (ha : GoodLead a) (hb : GoodText b) : GoodText (a ++ b) := by
  by_cases h : a.toList = []
  · have : a = "" := by simpa using h
    simpa [this] using hb
  · refine ⟨ha.1.append hb.1, ?_, ?_, ?_⟩ <;> simp only [String.toList_append]
    · simp [h]
    · rw [List.head?_append_of_ne_nil _ h]; exact ha.2
    · rw [List.getLast?_append_of_ne_nil _ hb.2.1]; exact hb.2.2.2

/-- The check of a literal. -/
def goodChars (l : List Char) : Bool :=
  l.all isPlainChar && !l.isEmpty && !(l.head? == some ' ') && !(l.getLast? == some ' ')

theorem goodText_of (t : String) (h : goodChars t.toList = true) : GoodText t := by
  simp only [goodChars, Bool.and_eq_true, List.all_eq_true, Bool.not_eq_true', List.isEmpty_eq_false_iff,
    beq_eq_false_iff_ne] at h
  exact ⟨h.1.1.1, h.1.1.2, h.1.2, h.2⟩

theorem plainText_of (t : String) (h : t.toList.all isPlainChar = true) : PlainText t := by
  simpa [PlainText, List.all_eq_true] using h

theorem goodLead_of (t : String) (h : (t.toList.all isPlainChar && !(t.toList.head? == some ' ')) = true) :
    GoodLead t := by
  simp only [Bool.and_eq_true, List.all_eq_true, Bool.not_eq_true', beq_eq_false_iff_ne] at h
  exact h

/-! ## The parts of a line -/

/-- The characters of a number are digits (R14). -/
theorem dec_digits (n : Nat) : ∀ c ∈ (dec n).toList, 48 ≤ c.toNat ∧ c.toNat ≤ 57 := by
  intro c hc
  have hm : c ∈ Nat.toDigits 10 n := by simpa [dec] using hc
  have hd := Nat.isDigit_of_mem_toDigits (by decide) (by decide) hm
  simp only [Char.isDigit, Bool.and_eq_true, decide_eq_true_eq] at hd
  exact hd

theorem dec_ne_nil (n : Nat) : (dec n).toList ≠ [] := by simp [dec, Nat.toDigits_ne_nil]

theorem dec_good (n : Nat) : GoodText (dec n) := by
  have hd := dec_digits n
  have hs : ∀ c ∈ (dec n).toList, c ≠ ' ' := by
    rintro c hc rfl
    have := (hd _ hc).1
    revert this; decide
  refine ⟨?_, dec_ne_nil n, ?_, ?_⟩
  · intro c hc
    obtain ⟨h1, h2⟩ := hd c hc
    have hn : c ≠ '\n' := by rintro rfl; revert h1; decide
    have hr : c ≠ '\r' := by rintro rfl; revert h1; decide
    simp [isPlainChar, hn, hr]; omega
  · intro h; exact hs _ (List.mem_of_head? h) rfl
  · intro h; exact hs _ (List.mem_of_getLast? h) rfl

theorem reg8_good (r : RegField) : GoodText (reg8 r) := by
  have h : ∀ r : RegField, r = 0 ∨ r = 1 ∨ r = 2 ∨ r = 3 ∨ r = 4 ∨ r = 5 ∨ r = 6 ∨ r = 7 := by decide
  rcases h r with rfl | rfl | rfl | rfl | rfl | rfl | rfl | rfl <;> exact goodText_of _ rfl

theorem reg16_good (r : RegField) : GoodText (reg16 r) := by
  have h : ∀ r : RegField, r = 0 ∨ r = 1 ∨ r = 2 ∨ r = 3 ∨ r = 4 ∨ r = 5 ∨ r = 6 ∨ r = 7 := by decide
  rcases h r with rfl | rfl | rfl | rfl | rfl | rfl | rfl | rfl <;> exact goodText_of _ rfl

theorem regName_good (w : Width) (r : RegField) : GoodText (regName w r) := by
  cases w
  · exact reg8_good r
  · exact reg16_good r

theorem sregName_good (sr : Sreg) : GoodText (sregName sr) := by cases sr <;> exact goodText_of _ rfl

theorem accName_good (w : Width) : GoodText (accName w) := by cases w <;> exact goodText_of _ rfl

theorem eaText_good (e : EaBase) : GoodText (eaText e) := by cases e <;> exact goodText_of _ rfl

theorem operandPre_good (q : Option Qual) (seg : Option Sreg) : GoodLead (operandPre q seg) := by
  rcases q with _ | q <;> rcases seg with _ | sr <;> [skip; cases sr; cases q; (cases q <;> cases sr)] <;>
    exact goodLead_of _ rfl

/-- An operand's own text, if it has one, is good. -/
def Operand.Good : Operand → Prop
  | .register n              => GoodText n
  | .literal t               => GoodText t
  | .memoryDirect _ _ _      => True
  | .memoryIndexed _ _ _ _ _ => True
  | .immediate _ _ _         => True
  | .shortRel _              => True
  | .nearAbs _               => True
  | .farPtr _ _              => True

theorem Operand.text_good (o : Operand) (h : o.Good) : GoodText o.text := by
  cases o with
  | register n => exact h
  | literal t => exact h
  | memoryDirect a seg q =>
    simp only [Operand.text, String.append_assoc]
    exact (operandPre_good q seg).append ((goodText_of "[" rfl).append ((dec_good _).append (goodText_of "]" rfl)))
  | memoryIndexed e v shown seg q =>
    simp only [Operand.text, String.append_assoc]
    refine (operandPre_good q seg).append ((goodText_of "[" rfl).append ?_)
    cases shown
    · simpa using (eaText_good e).append (goodText_of "]" rfl)
    · simp only [if_true, dispText]
      rw [← String.append_assoc]
      refine GoodText.append ?_ (goodText_of "]" rfl)
      split
      · exact (eaText_good e).between " - " (plainText_of _ rfl) (dec_good _)
      · exact (eaText_good e).between " + " (plainText_of _ rfl) (dec_good _)
  | immediate v isSigned width =>
    simp only [Operand.text, sdec]
    split
    · split
      · exact (goodText_of "-" rfl).append (dec_good _)
      · exact dec_good _
    · exact dec_good _
  | shortRel n =>
    simp only [Operand.text, shortText]
    split
    · exact (goodText_of "$-" rfl).append (dec_good _)
    · exact (goodText_of "$+" rfl).append (dec_good _)
  | nearAbs t => exact dec_good _
  | farPtr sgm off => exact ((dec_good _).append (goodText_of ":" rfl)).append (dec_good _)

theorem memOperand_good (m : Mem) (q : Option Qual) (L : Latches) : (memOperand m q L).Good := by cases m <;> trivial

theorem rmOperand_good (x : Rm) (w : Width) (q : Option Qual) (L : Latches) : (rmOperand x w q L).Good := by
  cases x with
  | reg r => exact regName_good w r
  | mem m => exact memOperand_good m q L

theorem immWOperand_good (im : ImmW) : (immWOperand im).Good := by cases im <;> trivial

theorem immSWOperand_good (im : ImmSW) : (immSWOperand im).Good := by cases im <;> trivial

/-- Every operand of a list is good. -/
def OpsGood (ops : List Operand) : Prop := ∀ o ∈ ops, o.Good

theorem noOps_good : OpsGood [] := by intro o ho; cases ho

theorem oneOp_good {a : Operand} (h : a.Good) : OpsGood [a] := by
  intro o ho; simp only [List.mem_singleton] at ho; rw [ho]; exact h

theorem twoOps_good {a b : Operand} (ha : a.Good) (hb : b.Good) : OpsGood [a, b] := by
  intro o ho
  simp only [List.mem_cons, List.not_mem_nil, or_false] at ho
  rcases ho with rfl | rfl
  · exact ha
  · exact hb

/-! The operand list of each form. -/

theorem opsRmRegD_good (d : Dir) (w : Width) (reg : RegField) (x : Rm) (L : Latches) :
    OpsGood (opsRmRegD d w reg x L) := by
  cases d
  · exact twoOps_good (rmOperand_good _ _ _ _) (regName_good _ _)
  · exact twoOps_good (regName_good _ _) (rmOperand_good _ _ _ _)
theorem opsRmReg_good (w : Width) (reg : RegField) (x : Rm) (L : Latches) : OpsGood (opsRmReg w reg x L) :=
  twoOps_good (rmOperand_good _ _ _ _) (regName_good _ _)
theorem opsRegMem_good (reg : RegField) (m : Mem) (L : Latches) : OpsGood (opsRegMem reg m L) :=
  twoOps_good (reg16_good _) (memOperand_good _ _ _)
theorem opsRmSreg_good (sr : Sreg) (x : Rm) (L : Latches) : OpsGood (opsRmSreg sr x L) :=
  twoOps_good (rmOperand_good _ _ _ _) (sregName_good _)
theorem opsSregRm_good (sr : Sreg) (x : Rm) (L : Latches) : OpsGood (opsSregRm sr x L) :=
  twoOps_good (sregName_good _) (rmOperand_good _ _ _ _)
theorem opsRmImmSW_good (x : Rm) (im : ImmSW) (L : Latches) : OpsGood (opsRmImmSW x im L) :=
  twoOps_good (rmOperand_good _ _ _ _) (immSWOperand_good _)
theorem opsRmImmW_good (x : Rm) (im : ImmW) (L : Latches) : OpsGood (opsRmImmW x im L) :=
  twoOps_good (rmOperand_good _ _ _ _) (immWOperand_good _)
theorem opsRm_good (w : Width) (x : Rm) (L : Latches) : OpsGood (opsRm w x L) := oneOp_good (rmOperand_good _ _ _ _)
theorem opsRmNear_good (x : Rm) (L : Latches) : OpsGood (opsRmNear x L) := oneOp_good (rmOperand_good _ _ _ _)
theorem opsFarMem_good (m : Mem) (L : Latches) : OpsGood (opsFarMem m L) := oneOp_good (memOperand_good _ _ _)
theorem opsShift_good (v : ShiftCount) (w : Width) (x : Rm) (L : Latches) : OpsGood (opsShift v w x L) := by
  cases v
  · exact twoOps_good (rmOperand_good _ _ _ _) (goodText_of "1" rfl)
  · exact twoOps_good (rmOperand_good _ _ _ _) (goodText_of "CL" rfl)
theorem opsAccImm_good (im : ImmW) : OpsGood (opsAccImm im) := twoOps_good (accName_good _) (immWOperand_good _)
theorem opsAccMem_good (w : Width) (a : Word) (L : Latches) : OpsGood (opsAccMem w a L) :=
  twoOps_good (accName_good _) trivial
theorem opsMemAcc_good (w : Width) (a : Word) (L : Latches) : OpsGood (opsMemAcc w a L) :=
  twoOps_good trivial (accName_good _)
theorem opsRegImm_good (ri : RegImm) : OpsGood (opsRegImm ri) := by
  cases ri
  · exact twoOps_good (reg8_good _) trivial
  · exact twoOps_good (reg16_good _) trivial
theorem opsReg16_good (r : RegField) : OpsGood (opsReg16 r) := oneOp_good (reg16_good _)
theorem opsAxReg_good (r : RegField) : OpsGood (opsAxReg r) := twoOps_good (goodText_of "AX" rfl) (reg16_good _)
theorem opsSreg_good (sr : Sreg) : OpsGood (opsSreg sr) := oneOp_good (sregName_good _)
theorem opsRel8_good (d : Byte) (L : Latches) : OpsGood (opsRel8 d L) := oneOp_good trivial
theorem opsRel16_good (d : Word) (L : Latches) : OpsGood (opsRel16 d L) := oneOp_good trivial
theorem opsFarPtr_good (off sgm : Word) : OpsGood (opsFarPtr off sgm) := oneOp_good trivial
theorem opsImm8_good (n : Byte) : OpsGood (opsImm8 n) := oneOp_good trivial
theorem opsImm16_good (n : Word) : OpsGood (opsImm16 n) := oneOp_good trivial
theorem opsInPort_good (w : Width) (p : Byte) : OpsGood (opsInPort w p) := twoOps_good (accName_good _) trivial
theorem opsOutPort_good (w : Width) (p : Byte) : OpsGood (opsOutPort w p) := twoOps_good trivial (accName_good _)
theorem opsInDx_good (w : Width) : OpsGood (opsInDx w) := twoOps_good (accName_good _) (goodText_of "DX" rfl)
theorem opsOutDx_good (w : Width) : OpsGood (opsOutDx w) := twoOps_good (goodText_of "DX" rfl) (accName_good _)

theorem goodString (t : String) (h : goodChars t.toList = true) (w : Width) : GoodText (t ++ strSuffix w) := by
  refine (goodText_of t h).append ?_
  cases w <;> exact goodText_of _ rfl

/-- Every instruction's row has a good mnemonic and good operands. -/
theorem rowOf_good (i : Instr) (L : Latches) : GoodText (rowOf i L).mnemonic ∧ OpsGood (rowOf i L).ops := by
  induction i with
  | lock body ih => exact ih
  | seg sr body ih => exact ih
  | rep body ih => exact ih
  | repne body ih => exact ih
  | movRmReg d w reg x => exact ⟨goodText_of "MOV" rfl, opsRmRegD_good d w reg x L⟩
  | movRmImm x im => exact ⟨goodText_of "MOV" rfl, opsRmImmW_good x im L⟩
  | movRegImm ri => exact ⟨goodText_of "MOV" rfl, opsRegImm_good ri⟩
  | movAccMem w a => exact ⟨goodText_of "MOV" rfl, opsAccMem_good w a L⟩
  | movMemAcc w a => exact ⟨goodText_of "MOV" rfl, opsMemAcc_good w a L⟩
  | movRmSreg sr x => exact ⟨goodText_of "MOV" rfl, opsRmSreg_good sr x L⟩
  | movSregRm sr x => exact ⟨goodText_of "MOV" rfl, opsSregRm_good sr x L⟩
  | pushRm x => exact ⟨goodText_of "PUSH" rfl, opsRm_good .word x L⟩
  | pushReg r => exact ⟨goodText_of "PUSH" rfl, opsReg16_good r⟩
  | pushSreg sr => exact ⟨goodText_of "PUSH" rfl, opsSreg_good sr⟩
  | popRm x => exact ⟨goodText_of "POP" rfl, opsRm_good .word x L⟩
  | popReg r => exact ⟨goodText_of "POP" rfl, opsReg16_good r⟩
  | popSreg sr => exact ⟨goodText_of "POP" rfl, opsSreg_good sr⟩
  | xchgRmReg w reg x => exact ⟨goodText_of "XCHG" rfl, opsRmReg_good w reg x L⟩
  | xchgAxReg r => exact ⟨goodText_of "XCHG" rfl, opsAxReg_good r⟩
  | inPort w p => exact ⟨goodText_of "IN" rfl, opsInPort_good w p⟩
  | inDx w => exact ⟨goodText_of "IN" rfl, opsInDx_good w⟩
  | outPort w p => exact ⟨goodText_of "OUT" rfl, opsOutPort_good w p⟩
  | outDx w => exact ⟨goodText_of "OUT" rfl, opsOutDx_good w⟩
  | xlat => exact ⟨goodText_of "XLAT" rfl, noOps_good⟩
  | lea reg m => exact ⟨goodText_of "LEA" rfl, opsRegMem_good reg m L⟩
  | lds reg m => exact ⟨goodText_of "LDS" rfl, opsRegMem_good reg m L⟩
  | les reg m => exact ⟨goodText_of "LES" rfl, opsRegMem_good reg m L⟩
  | lahf => exact ⟨goodText_of "LAHF" rfl, noOps_good⟩
  | sahf => exact ⟨goodText_of "SAHF" rfl, noOps_good⟩
  | pushf => exact ⟨goodText_of "PUSHF" rfl, noOps_good⟩
  | popf => exact ⟨goodText_of "POPF" rfl, noOps_good⟩
  | addRmReg d w reg x => exact ⟨goodText_of "ADD" rfl, opsRmRegD_good d w reg x L⟩
  | addRmImm x im => exact ⟨goodText_of "ADD" rfl, opsRmImmSW_good x im L⟩
  | addAccImm im => exact ⟨goodText_of "ADD" rfl, opsAccImm_good im⟩
  | adcRmReg d w reg x => exact ⟨goodText_of "ADC" rfl, opsRmRegD_good d w reg x L⟩
  | adcRmImm x im => exact ⟨goodText_of "ADC" rfl, opsRmImmSW_good x im L⟩
  | adcAccImm im => exact ⟨goodText_of "ADC" rfl, opsAccImm_good im⟩
  | sbbRmReg d w reg x => exact ⟨goodText_of "SBB" rfl, opsRmRegD_good d w reg x L⟩
  | sbbRmImm x im => exact ⟨goodText_of "SBB" rfl, opsRmImmSW_good x im L⟩
  | sbbAccImm im => exact ⟨goodText_of "SBB" rfl, opsAccImm_good im⟩
  | subRmReg d w reg x => exact ⟨goodText_of "SUB" rfl, opsRmRegD_good d w reg x L⟩
  | subRmImm x im => exact ⟨goodText_of "SUB" rfl, opsRmImmSW_good x im L⟩
  | subAccImm im => exact ⟨goodText_of "SUB" rfl, opsAccImm_good im⟩
  | cmpRmReg d w reg x => exact ⟨goodText_of "CMP" rfl, opsRmRegD_good d w reg x L⟩
  | cmpRmImm x im => exact ⟨goodText_of "CMP" rfl, opsRmImmSW_good x im L⟩
  | cmpAccImm im => exact ⟨goodText_of "CMP" rfl, opsAccImm_good im⟩
  | incRm w x => exact ⟨goodText_of "INC" rfl, opsRm_good w x L⟩
  | incReg r => exact ⟨goodText_of "INC" rfl, opsReg16_good r⟩
  | decRm w x => exact ⟨goodText_of "DEC" rfl, opsRm_good w x L⟩
  | decReg r => exact ⟨goodText_of "DEC" rfl, opsReg16_good r⟩
  | aaa => exact ⟨goodText_of "AAA" rfl, noOps_good⟩
  | daa => exact ⟨goodText_of "DAA" rfl, noOps_good⟩
  | aas => exact ⟨goodText_of "AAS" rfl, noOps_good⟩
  | das => exact ⟨goodText_of "DAS" rfl, noOps_good⟩
  | neg w x => exact ⟨goodText_of "NEG" rfl, opsRm_good w x L⟩
  | mul w x => exact ⟨goodText_of "MUL" rfl, opsRm_good w x L⟩
  | imul w x => exact ⟨goodText_of "IMUL" rfl, opsRm_good w x L⟩
  | div w x => exact ⟨goodText_of "DIV" rfl, opsRm_good w x L⟩
  | idiv w x => exact ⟨goodText_of "IDIV" rfl, opsRm_good w x L⟩
  | aam => exact ⟨goodText_of "AAM" rfl, noOps_good⟩
  | aad => exact ⟨goodText_of "AAD" rfl, noOps_good⟩
  | cbw => exact ⟨goodText_of "CBW" rfl, noOps_good⟩
  | cwd => exact ⟨goodText_of "CWD" rfl, noOps_good⟩
  | orRmReg d w reg x => exact ⟨goodText_of "OR" rfl, opsRmRegD_good d w reg x L⟩
  | orRmImm x im => exact ⟨goodText_of "OR" rfl, opsRmImmSW_good x im L⟩
  | orAccImm im => exact ⟨goodText_of "OR" rfl, opsAccImm_good im⟩
  | andRmReg d w reg x => exact ⟨goodText_of "AND" rfl, opsRmRegD_good d w reg x L⟩
  | andRmImm x im => exact ⟨goodText_of "AND" rfl, opsRmImmSW_good x im L⟩
  | andAccImm im => exact ⟨goodText_of "AND" rfl, opsAccImm_good im⟩
  | xorRmReg d w reg x => exact ⟨goodText_of "XOR" rfl, opsRmRegD_good d w reg x L⟩
  | xorRmImm x im => exact ⟨goodText_of "XOR" rfl, opsRmImmSW_good x im L⟩
  | xorAccImm im => exact ⟨goodText_of "XOR" rfl, opsAccImm_good im⟩
  | not w x => exact ⟨goodText_of "NOT" rfl, opsRm_good w x L⟩
  | rol v w x => exact ⟨goodText_of "ROL" rfl, opsShift_good v w x L⟩
  | ror v w x => exact ⟨goodText_of "ROR" rfl, opsShift_good v w x L⟩
  | rcl v w x => exact ⟨goodText_of "RCL" rfl, opsShift_good v w x L⟩
  | rcr v w x => exact ⟨goodText_of "RCR" rfl, opsShift_good v w x L⟩
  | shl v w x => exact ⟨goodText_of "SHL" rfl, opsShift_good v w x L⟩
  | shr v w x => exact ⟨goodText_of "SHR" rfl, opsShift_good v w x L⟩
  | sar v w x => exact ⟨goodText_of "SAR" rfl, opsShift_good v w x L⟩
  | testRmReg w reg x => exact ⟨goodText_of "TEST" rfl, opsRmReg_good w reg x L⟩
  | testRmImm x im => exact ⟨goodText_of "TEST" rfl, opsRmImmW_good x im L⟩
  | testAccImm im => exact ⟨goodText_of "TEST" rfl, opsAccImm_good im⟩
  | movs w => exact ⟨goodString "MOVS" rfl w, noOps_good⟩
  | cmps w => exact ⟨goodString "CMPS" rfl w, noOps_good⟩
  | scas w => exact ⟨goodString "SCAS" rfl w, noOps_good⟩
  | lods w => exact ⟨goodString "LODS" rfl w, noOps_good⟩
  | stos w => exact ⟨goodString "STOS" rfl w, noOps_good⟩
  | callNear disp => exact ⟨goodText_of "CALL" rfl, opsRel16_good disp L⟩
  | callRm x => exact ⟨goodText_of "CALL" rfl, opsRmNear_good x L⟩
  | callFar off sgm => exact ⟨goodText_of "CALL" rfl, opsFarPtr_good off sgm⟩
  | callFarMem m => exact ⟨goodText_of "CALL" rfl, opsFarMem_good m L⟩
  | jmpNear disp => exact ⟨goodText_of "JMP" rfl, opsRel16_good disp L⟩
  | jmpShort disp => exact ⟨goodText_of "JMP" rfl, opsRel8_good disp L⟩
  | jmpRm x => exact ⟨goodText_of "JMP" rfl, opsRmNear_good x L⟩
  | jmpFar off sgm => exact ⟨goodText_of "JMP" rfl, opsFarPtr_good off sgm⟩
  | jmpFarMem m => exact ⟨goodText_of "JMP" rfl, opsFarMem_good m L⟩
  | ret => exact ⟨goodText_of "RET" rfl, noOps_good⟩
  | retImm n => exact ⟨goodText_of "RET" rfl, opsImm16_good n⟩
  | retf => exact ⟨goodText_of "RETF" rfl, noOps_good⟩
  | retfImm n => exact ⟨goodText_of "RETF" rfl, opsImm16_good n⟩
  | jo disp => exact ⟨goodText_of "JO" rfl, opsRel8_good disp L⟩
  | jno disp => exact ⟨goodText_of "JNO" rfl, opsRel8_good disp L⟩
  | jb disp => exact ⟨goodText_of "JB" rfl, opsRel8_good disp L⟩
  | jnb disp => exact ⟨goodText_of "JNB" rfl, opsRel8_good disp L⟩
  | jz disp => exact ⟨goodText_of "JZ" rfl, opsRel8_good disp L⟩
  | jnz disp => exact ⟨goodText_of "JNZ" rfl, opsRel8_good disp L⟩
  | jbe disp => exact ⟨goodText_of "JBE" rfl, opsRel8_good disp L⟩
  | ja disp => exact ⟨goodText_of "JA" rfl, opsRel8_good disp L⟩
  | js disp => exact ⟨goodText_of "JS" rfl, opsRel8_good disp L⟩
  | jns disp => exact ⟨goodText_of "JNS" rfl, opsRel8_good disp L⟩
  | jp disp => exact ⟨goodText_of "JP" rfl, opsRel8_good disp L⟩
  | jnp disp => exact ⟨goodText_of "JNP" rfl, opsRel8_good disp L⟩
  | jl disp => exact ⟨goodText_of "JL" rfl, opsRel8_good disp L⟩
  | jnl disp => exact ⟨goodText_of "JNL" rfl, opsRel8_good disp L⟩
  | jle disp => exact ⟨goodText_of "JLE" rfl, opsRel8_good disp L⟩
  | jg disp => exact ⟨goodText_of "JG" rfl, opsRel8_good disp L⟩
  | loop disp => exact ⟨goodText_of "LOOP" rfl, opsRel8_good disp L⟩
  | loopz disp => exact ⟨goodText_of "LOOPZ" rfl, opsRel8_good disp L⟩
  | loopnz disp => exact ⟨goodText_of "LOOPNZ" rfl, opsRel8_good disp L⟩
  | jcxz disp => exact ⟨goodText_of "JCXZ" rfl, opsRel8_good disp L⟩
  | int n => exact ⟨goodText_of "INT" rfl, opsImm8_good n⟩
  | int3 => exact ⟨goodText_of "INT3" rfl, noOps_good⟩
  | into => exact ⟨goodText_of "INTO" rfl, noOps_good⟩
  | iret => exact ⟨goodText_of "IRET" rfl, noOps_good⟩
  | clc => exact ⟨goodText_of "CLC" rfl, noOps_good⟩
  | cmc => exact ⟨goodText_of "CMC" rfl, noOps_good⟩
  | stc => exact ⟨goodText_of "STC" rfl, noOps_good⟩
  | cld => exact ⟨goodText_of "CLD" rfl, noOps_good⟩
  | std => exact ⟨goodText_of "STD" rfl, noOps_good⟩
  | cli => exact ⟨goodText_of "CLI" rfl, noOps_good⟩
  | sti => exact ⟨goodText_of "STI" rfl, noOps_good⟩
  | hlt => exact ⟨goodText_of "HLT" rfl, noOps_good⟩
  | wait => exact ⟨goodText_of "WAIT" rfl, noOps_good⟩
  | nop => exact ⟨goodText_of "NOP" rfl, noOps_good⟩

theorem joinOps_good : ∀ l : List String, l ≠ [] → (∀ t ∈ l, GoodText t) → GoodText (joinOps l)
  | [], h, _ => absurd rfl h
  | [t], _, h => h t (by simp)
  | t :: u :: r, _, h => by
    rw [joinOps, String.append_assoc]
    exact (h t (by simp)).between ", " (plainText_of _ rfl)
      (joinOps_good (u :: r) (by simp) (fun x hx => h x (List.mem_cons_of_mem _ hx)))

theorem lineLead_good (L : Latches) : GoodLead (lineLead L) := by
  obtain ⟨l, sg, rp, a, b, c⟩ := L
  rcases l with _ | _ <;> rcases rp with _ | _ | _
  · exact goodLead_of "" rfl
  · exact goodLead_of "REPNE " rfl
  · exact goodLead_of "REP " rfl
  · exact goodLead_of "LOCK " rfl
  · exact goodLead_of "LOCK REPNE " rfl
  · exact goodLead_of "LOCK REP " rfl

/-- What `render` makes of a good row is a good line. -/
theorem render_good (L : Latches) (row : Row) (hm : GoodText row.mnemonic) (ho : OpsGood row.ops) :
    GoodText (render L row) := by
  obtain ⟨m, ops⟩ := row
  unfold render
  rw [String.append_assoc]
  refine (lineLead_good L).append ?_
  cases ops with
  | nil => simpa [opsText] using hm
  | cons o os =>
    refine hm.between " " (plainText_of _ rfl) (joinOps_good _ (by simp) ?_)
    intro t ht
    obtain ⟨o', ho', rfl⟩ := List.mem_map.1 ht
    exact o'.text_good (ho o' ho')

end Sys2Proof.Machine
end

