-- ==== Sys2Proof/Tests/Slice0.lean ====
section
/-! SUPPORT. Tests. Expected results are the spec's: the words are written out from the encodings of opcode_table.json, the
lines and records are those of spec/95_test_vectors.md (a theorem names its vector), or follow from the rule named. -/

namespace Sys2Proof.Tests

open Machine

/-- The block reset with these bytes (R401), named `t`, loaded at 0. -/
def load (bytes : List Byte) : State := State.resetWith bytes "t" 0

/-- The state after its first step. -/
def first (bytes : List Byte) : State := afterStep (load bytes)

/-- The next state an outcome answers. -/
def nextOf (o : Host.Outcome State Fault Refusal) : Option State :=
  match o with
  | .next t    => some t
  | .fault _   => none
  | .refused _ => none

theorem eq_next {o : Host.Outcome State Fault Refusal} {t : State} (h : nextOf o = some t) : o = .next t := by
  cases o with
  | next u => exact congrArg Host.Outcome.next (Option.some.inj h)
  | fault r => cases h
  | refused r => cases h

/-! ## WellFormed refuses an ill-formed term for each of its checks -/

/-- `mod = 00` with base BP alone is the direct address (R73). -/
theorem test_wf_base_bp : ¬ WellFormed (.movRmReg .regFirst .word 0 (.mem (.base .bp))) := by decide
theorem test_wf_base_bp_mem : ¬ WellFormed (.lea 0 (.base .bp)) := by decide
/-- POP CS (R80). -/
theorem test_wf_pop_cs : ¬ WellFormed (.popSreg .cs) := by decide
/-- 0x90 is NOP (R82). -/
theorem test_wf_xchg_ax_ax : ¬ WellFormed (.xchgAxReg 0) := by decide
/-- At most one LOCK, and first (R83). -/
theorem test_wf_lock_lock : ¬ WellFormed (.lock (.lock .nop)) := by decide
theorem test_wf_seg_lock : ¬ WellFormed (.seg .cs (.lock (.incRm .byte (.mem (.base .bx))))) := by decide
/-- One override, before an explicit memory operand (R83, R122). -/
theorem test_wf_seg_seg : ¬ WellFormed (.seg .es (.seg .cs (.incRm .byte (.mem (.base .bx))))) := by decide
theorem test_wf_seg_register : ¬ WellFormed (.seg .es (.incRm .byte (.reg 0))) := by decide
theorem test_wf_seg_string : ¬ WellFormed (.seg .es (.movs .byte)) := by decide
/-- A repeat prefix only before a string opcode (R83, R113). -/
theorem test_wf_rep_nop : ¬ WellFormed (.rep .nop) := by decide
theorem test_wf_repne_seg : ¬ WellFormed (.repne (.seg .es (.movs .byte))) := by decide
theorem test_wf_rep_rep : ¬ WellFormed (.rep (.rep (.movs .byte))) := by decide
/-- A prefix before an ill-formed instruction. -/
theorem test_wf_lock_pop_cs : ¬ WellFormed (.lock (.popSreg .cs)) := by decide
/-- An ill-formed term has no meaning (log 10). -/
theorem test_exec_ill_formed : exec (.popSreg .cs) (load [0x0F]) = .refused .illFormed := rfl

/-! ## Every constructor's decoding, from a word written out from its row's encoding

The opcode byte and the ModRM byte are written bit by bit as the `encoding` of the row, displacement and data as bytes. -/

/-- spec/41_data_transfer.md. -/
def wordsDataTransfer1 : List (List Byte × Instr) :=
  [([0b10001001, 0b00001001], .movRmReg .rmFirst .word 1 (.mem (.base .bxDi))),
   ([0b11000110, 0b01000010, 0x7F, 0x00], .movRmImm (.mem (.disp8 .bpSi 0x7F)) (.imm8 0x00)),
   ([0b10111011, 0x01, 0x00], .movRegImm (.r16 3 0x0001)),
   ([0b10100000, 0xFF, 0xFF], .movAccMem .byte 0xFFFF),
   ([0b10100011, 0x00, 0x80], .movMemAcc .word 0x8000),
   ([0b10001100, 0b00010111], .movRmSreg .ss (.mem (.base .bx))),
   ([0b10001110, 0b01011111, 0x00], .movSregRm .ds (.mem (.disp8 .bx 0x00))),
   ([0b11111111, 0b10110000, 0x00, 0x80], .pushRm (.mem (.disp16 .bxSi 0x8000))),
   ([0b01010001], .pushReg 1),
   ([0b00010110], .pushSreg .ss),
   ([0b10001111, 0b00000011], .popRm (.mem (.base .bpDi))),
   ([0b01011100], .popReg 4),
   ([0b00011111], .popSreg .ds),
   ([0b10000110, 0b11110110], .xchgRmReg .byte 6 (.reg 6)),
   ([0b10010111], .xchgAxReg 7),
   ([0b11100100, 0xFF], .inPort .byte 0xFF),
   ([0b11101101], .inDx .word),
   ([0b11100110, 0x00], .outPort .byte 0x00)]

/-- spec/41_data_transfer.md. -/
def wordsDataTransfer2 : List (List Byte × Instr) :=
  [([0b11101111], .outDx .word),
   ([0b11010111], .xlat),
   ([0b10001101, 0b00101101], .lea 5 (.base .di)),
   ([0b11000101, 0b01110110, 0x7F], .lds 6 (.disp8 .bp 0x7F)),
   ([0b11000100, 0b10111111, 0x02, 0x01], .les 7 (.disp16 .bx 0x0102)),
   ([0b10011111], .lahf),
   ([0b10011110], .sahf),
   ([0b10011100], .pushf),
   ([0b10011101], .popf)]

/-- spec/42_arithmetic.md. -/
def wordsArithmetic1 : List (List Byte × Instr) :=
  [([0b00000000, 0b10100100, 0x00, 0x80], .addRmReg .rmFirst .byte 4 (.mem (.disp16 .si 0x8000))),
   ([0b10000011, 0b11000101, 0x80], .addRmImm (.reg 5) (.sext8 0x80)),
   ([0b00000100, 0x00], .addAccImm (.imm8 0x00)),
   ([0b00010011, 0b00111111], .adcRmReg .regFirst .word 7 (.mem (.base .bx))),
   ([0b10000000, 0b01010000, 0x80, 0xFF], .adcRmImm (.mem (.disp8 .bxSi 0x80)) (.imm8 false 0xFF)),
   ([0b00010101, 0x00, 0x80], .adcAccImm (.imm16 0x8000)),
   ([0b00011010, 0b11010010], .sbbRmReg .regFirst .byte 2 (.reg 2)),
   ([0b10000011, 0b00011110, 0x1D, 0xFD, 0x7F], .sbbRmImm (.mem (.direct 0xFD1D)) (.sext8 0x7F)),
   ([0b00011100, 0xFF], .sbbAccImm (.imm8 0xFF)),
   ([0b00101001, 0b01101101, 0xFF], .subRmReg .rmFirst .word 5 (.mem (.disp8 .di 0xFF))),
   ([0b10000000, 0b10101110, 0xFF, 0x7F, 0x00], .subRmImm (.mem (.disp16 .bp 0x7FFF)) (.imm8 false 0x00)),
   ([0b00101101, 0x01, 0x00], .subAccImm (.imm16 0x0001)),
   ([0b00111000, 0b00000110, 0x21, 0x58], .cmpRmReg .rmFirst .byte 0 (.mem (.direct 0x5821))),
   ([0b10000011, 0b00111001, 0x80], .cmpRmImm (.mem (.base .bxDi)) (.sext8 0x80)),
   ([0b00111100, 0x00], .cmpAccImm (.imm8 0x00)),
   ([0b11111111, 0b10000011, 0x02, 0x01], .incRm .word (.mem (.disp16 .bpDi 0x0102))),
   ([0b01000100], .incReg 4),
   ([0b11111111, 0b00001110, 0x25, 0xB3], .decRm .word (.mem (.direct 0xB325)))]

/-- spec/42_arithmetic.md. -/
def wordsArithmetic2 : List (List Byte × Instr) :=
  [([0b01001110], .decReg 6),
   ([0b00110111], .aaa),
   ([0b00100111], .daa),
   ([0b00111111], .aas),
   ([0b00101111], .das),
   ([0b11110111, 0b00011011], .neg .word (.mem (.base .bpDi))),
   ([0b11110110, 0b01100100, 0x80], .mul .byte (.mem (.disp8 .si 0x80))),
   ([0b11110111, 0b10101101, 0xFF, 0xFF], .imul .word (.mem (.disp16 .di 0xFFFF))),
   ([0b11110110, 0b11110110], .div .byte (.reg 6)),
   ([0b11110111, 0b00111110, 0x2D, 0x69], .idiv .word (.mem (.direct 0x692D))),
   ([0b11010100, 0b00001010], .aam),
   ([0b11010101, 0b00001010], .aad),
   ([0b10011000], .cbw),
   ([0b10011001], .cwd)]

/-- spec/43_logic.md. -/
def wordsLogic1 : List (List Byte × Instr) :=
  [([0b00001000, 0b00100110, 0x31, 0xC4], .orRmReg .rmFirst .byte 4 (.mem (.direct 0xC431))),
   ([0b10000001, 0b00001101, 0x00, 0x80], .orRmImm (.mem (.base .di)) (.imm16 0x8000)),
   ([0b00001100, 0x00], .orAccImm (.imm8 0x00)),
   ([0b00100011, 0b10111111, 0x02, 0x01], .andRmReg .regFirst .word 7 (.mem (.disp16 .bx 0x0102))),
   ([0b10000010, 0b11100000, 0xFF], .andRmImm (.reg 0) (.imm8 true 0xFF)),
   ([0b00100101, 0x00, 0x80], .andAccImm (.imm16 0x8000)),
   ([0b00110010, 0b00010010], .xorRmReg .regFirst .byte 2 (.mem (.base .bpSi))),
   ([0b10000001, 0b01110011, 0x00, 0x01, 0x00], .xorRmImm (.mem (.disp8 .bpDi 0x00)) (.imm16 0x0001)),
   ([0b00110100, 0xFF], .xorAccImm (.imm8 0xFF)),
   ([0b11110111, 0b11010101], .not .word (.reg 5)),
   ([0b11010010, 0b00000110, 0x39, 0x7A], .rol .cl .byte (.mem (.direct 0x7A39))),
   ([0b11010011, 0b00001111], .ror .cl .word (.mem (.base .bx))),
   ([0b11010000, 0b01010000, 0x80], .rcl .one .byte (.mem (.disp8 .bxSi 0x80))),
   ([0b11010001, 0b10011001, 0xFF, 0xFF], .rcr .one .word (.mem (.disp16 .bxDi 0xFFFF))),
   ([0b11010010, 0b11100010], .shl .cl .byte (.reg 2)),
   ([0b11010011, 0b00101110, 0x3D, 0xD5], .shr .cl .word (.mem (.direct 0xD53D))),
   ([0b11010000, 0b00111100], .sar .one .byte (.mem (.base .si))),
   ([0b10000101, 0b01101101, 0xFF], .testRmReg .word 5 (.mem (.disp8 .di 0xFF)))]

/-- spec/43_logic.md. -/
def wordsLogic2 : List (List Byte × Instr) :=
  [([0b11110110, 0b10000110, 0xFF, 0x7F, 0x00], .testRmImm (.mem (.disp16 .bp 0x7FFF)) (.imm8 0x00)),
   ([0b10101001, 0x01, 0x00], .testAccImm (.imm16 0x0001))]

/-- spec/44_string.md. -/
def wordsString : List (List Byte × Instr) :=
  [([0b10100100], .movs .byte),
   ([0b10100111], .cmps .word),
   ([0b10101110], .scas .byte),
   ([0b10101101], .lods .word),
   ([0b10101010], .stos .byte),
   ([0b11110011, 0xA5], .rep (.movs .word)),
   ([0b11110010, 0xA5], .repne (.movs .word))]

/-- spec/45_control_transfer.md. -/
def wordsControlTransfer1 : List (List Byte × Instr) :=
  [([0b11101000, 0x01, 0x00], .callNear 0x0001),
   ([0b11111111, 0b10010000, 0x00, 0x80], .callRm (.mem (.disp16 .bxSi 0x8000))),
   ([0b10011010, 0x59, 0x01, 0x00, 0xF0], .callFar 0x0159 0xF000),
   ([0b11111111, 0b01011010, 0x7F], .callFarMem (.disp8 .bpSi 0x7F)),
   ([0b11101001, 0x01, 0x00], .jmpNear 0x0001),
   ([0b11101011, 0xFF], .jmpShort 0xFF),
   ([0b11111111, 0b10100101, 0xFF, 0xFF], .jmpRm (.mem (.disp16 .di 0xFFFF))),
   ([0b11101010, 0x5E, 0x01, 0x00, 0xF0], .jmpFar 0x015E 0xF000),
   ([0b11111111, 0b10101111, 0x02, 0x01], .jmpFarMem (.disp16 .bx 0x0102)),
   ([0b11000011], .ret),
   ([0b11000010, 0x00, 0x80], .retImm 0x8000),
   ([0b11001011], .retf),
   ([0b11001010, 0x01, 0x00], .retfImm 0x0001),
   ([0b01110000, 0xFF], .jo 0xFF),
   ([0b01110001, 0x80], .jno 0x80),
   ([0b01110010, 0x00], .jb 0x00),
   ([0b01110011, 0x7F], .jnb 0x7F),
   ([0b01110100, 0xFF], .jz 0xFF)]

/-- spec/45_control_transfer.md. -/
def wordsControlTransfer2 : List (List Byte × Instr) :=
  [([0b01110101, 0x80], .jnz 0x80),
   ([0b01110110, 0x00], .jbe 0x00),
   ([0b01110111, 0x7F], .ja 0x7F),
   ([0b01111000, 0xFF], .js 0xFF),
   ([0b01111001, 0x80], .jns 0x80),
   ([0b01111010, 0x00], .jp 0x00),
   ([0b01111011, 0x7F], .jnp 0x7F),
   ([0b01111100, 0xFF], .jl 0xFF),
   ([0b01111101, 0x80], .jnl 0x80),
   ([0b01111110, 0x00], .jle 0x00),
   ([0b01111111, 0x7F], .jg 0x7F),
   ([0b11100010, 0xFF], .loop 0xFF),
   ([0b11100001, 0x80], .loopz 0x80),
   ([0b11100000, 0x00], .loopnz 0x00),
   ([0b11100011, 0x7F], .jcxz 0x7F),
   ([0b11001101, 0xFF], .int 0xFF),
   ([0b11001100], .int3),
   ([0b11001110], .into)]

/-- spec/45_control_transfer.md. -/
def wordsControlTransfer3 : List (List Byte × Instr) :=
  [([0b11001111], .iret)]

/-- spec/46_processor_control.md. -/
def wordsProcessorControl : List (List Byte × Instr) :=
  [([0b11111000], .clc),
   ([0b11110101], .cmc),
   ([0b11111001], .stc),
   ([0b11111100], .cld),
   ([0b11111101], .std),
   ([0b11111010], .cli),
   ([0b11111011], .sti),
   ([0b11110100], .hlt),
   ([0b10011011], .wait),
   ([0b11110000, 0x40], .lock (.incReg 0)),
   ([0b00110110, 0x8B, 0x07], .seg .ss (.movRmReg .regFirst .word 0 (.mem (.base .bx)))),
   ([0b10010000], .nop)]

/-- Each list of bytes decodes whole to the instruction beside it, which is well formed. -/
def Decodes (words : List (List Byte × Instr)) : Bool :=
  words.all fun p =>
    p.2.wf && (match decodeOne p.1 0 with
      | .ok (i, n) => decide (i = p.2) && decide (n = p.1.length)
      | .error _   => false)

theorem test_decode_DataTransfer1 : Decodes wordsDataTransfer1 = true := by decide
theorem test_decode_DataTransfer2 : Decodes wordsDataTransfer2 = true := by decide
theorem test_decode_Arithmetic1 : Decodes wordsArithmetic1 = true := by decide
theorem test_decode_Arithmetic2 : Decodes wordsArithmetic2 = true := by decide
theorem test_decode_Logic1 : Decodes wordsLogic1 = true := by decide
theorem test_decode_Logic2 : Decodes wordsLogic2 = true := by decide
theorem test_decode_String : Decodes wordsString = true := by decide
theorem test_decode_ControlTransfer1 : Decodes wordsControlTransfer1 = true := by decide
theorem test_decode_ControlTransfer2 : Decodes wordsControlTransfer2 = true := by decide
theorem test_decode_ControlTransfer3 : Decodes wordsControlTransfer3 = true := by decide
theorem test_decode_ProcessorControl : Decodes wordsProcessorControl = true := by decide

/-! ## Table words (log 8) -/

theorem test_table_word_mov : decodeTableWord 16 0x89D8 = some (.movRmReg .rmFirst .word 3 (.reg 0)) := by decide
theorem test_table_word_operand_zero : decodeTableWord 8 0xE8 = some (.callNear 0) := by decide
theorem test_table_word_aam : decodeTableWord 16 0xD40A = some .aam := by decide
/-- A repeat prefix followed by zeros is no instruction (R113). -/
theorem test_table_word_rep : decodeTableWord 8 0xF3 = none := by decide
theorem test_table_word_lock : decodeTableWord 8 0xF0 = some (.lock (.addRmReg .rmFirst .byte 0 (.mem (.base .bxSi)))) := by
  decide
/-- A table word runs as the next instruction after reset, and at a cursor inside or past a buffer (log 14). -/
theorem test_fetch_word_reset :
    (afterStep (State.reset.withFetchWord 16 0x89D8)).listing.drop 2 = ["MOV AX, BX"] := by decide
theorem test_fetch_word_inside :
    (afterStep ((first [0x90, 0x90]).withFetchWord 8 0x40)).listing.drop 2 = ["NOP", "INC AX"] := by decide
theorem test_fetch_word_keeps :
    ((first [0x90, 0x90]).withFetchWord 8 0x40).buf = [0x90, 0x40, 0, 0, 0, 0, 0, 0, 0] := by decide

/-! ## Lines of spec/95_test_vectors.md, one step each -/

theorem test_line_S1 : (first [0x89, 0xD8]).listing.drop 2 = ["MOV AX, BX"] := by decide
theorem test_line_S2 : (first [0xB8, 0x05, 0x00]).listing.drop 2 = ["MOV AX, 5"] := by decide
theorem test_line_S3 : (first [0x74, 0xFE]).listing.drop 2 = ["JZ $+0"] := by decide
theorem test_line_S4 : (first [0x74, 0x02]).listing.drop 2 = ["JZ $+4"] := by decide
theorem test_line_V_B3 : (first [0x74, 0xFF]).listing.drop 2 = ["JZ $+1"] := by decide
theorem test_line_V_B4 : (first [0xEB, 0x80]).listing.drop 2 = ["JMP $-126"] := by decide
theorem test_line_V_A7 : (first [0x8B, 0x06, 0x34, 0x12]).listing.drop 2 = ["MOV AX, [4660]"] := by decide
theorem test_line_V_A34 : (first [0x8B, 0x47, 0x80]).listing.drop 2 = ["MOV AX, [BX - 128]"] := by decide
theorem test_line_V_A38 : (first [0x8B, 0x46, 0x00]).listing.drop 2 = ["MOV AX, [BP + 0]"] := by decide
theorem test_line_V_I2 : (first [0x82, 0xC1, 0xFF]).listing.drop 2 = ["ADD CL, 255"] := by decide
theorem test_line_V_I4 : (first [0x83, 0xC1, 0xFF]).listing.drop 2 = ["ADD CX, -1"] := by decide
theorem test_line_V_I6 : (first [0x83, 0xC1, 0x80]).listing.drop 2 = ["ADD CX, -128"] := by decide
theorem test_line_V_I9 : (first [0x83, 0x06, 0x00, 0x10, 0x01]).listing.drop 2 = ["ADD WORD [4096], 1"] := by decide
theorem test_line_V_I10 : (first [0xC7, 0x06, 0xE8, 0x03, 0xFF, 0xFF]).listing.drop 2 = ["MOV WORD [1000], 65535"] := by decide
theorem test_line_V_I13 : (first [0xF7, 0xC3, 0x34, 0x12]).listing.drop 2 = ["TEST BX, 4660"] := by decide
theorem test_line_V_I16 : (first [0x3D, 0x00, 0x80]).listing.drop 2 = ["CMP AX, 32768"] := by decide
theorem test_line_V_I20 : (first [0xC2, 0x04, 0x00]).listing.drop 2 = ["RET 4"] := by decide
theorem test_line_V_G41 : (first [0xFF, 0x17]).listing.drop 2 = ["CALL [BX]"] := by decide
theorem test_line_V_G42 : (first [0xFF, 0x1F]).listing.drop 2 = ["CALL FAR [BX]"] := by decide
theorem test_line_V_DT7 : (first [0x89, 0x87, 0x00, 0x80]).listing.drop 2 = ["MOV [BX - 32768], AX"] := by decide
theorem test_line_V_DT17 : (first [0xA3, 0xFF, 0xFF]).listing.drop 2 = ["MOV [65535], AX"] := by decide
theorem test_line_V_DT18 : (first [0x26, 0xA1, 0x00, 0x00]).listing.drop 2 = ["MOV AX, ES:[0]"] := by decide
theorem test_line_V_DT22 : (first [0x8E, 0xC8]).listing.drop 2 = ["MOV CS, AX"] := by decide
theorem test_line_V_DT26 : (first [0xFF, 0x36, 0x00, 0x10]).listing.drop 2 = ["PUSH WORD [4096]"] := by decide
theorem test_line_V_DT30 : (first [0x06]).listing.drop 2 = ["PUSH ES"] := by decide
theorem test_line_V_DT36 : (first [0x1F]).listing.drop 2 = ["POP DS"] := by decide
theorem test_line_V_DT42 : (first [0x87, 0x0E, 0x00, 0x10]).listing.drop 2 = ["XCHG [4096], CX"] := by decide
theorem test_line_V_DT45 : (first [0x97]).listing.drop 2 = ["XCHG AX, DI"] := by decide
theorem test_line_V_DT46 : (first [0x90]).listing.drop 2 = ["NOP"] := by decide
theorem test_line_V_DT51 : (first [0xE6, 0x10]).listing.drop 2 = ["OUT 16, AL"] := by decide
theorem test_line_V_DT53 : (first [0xEE]).listing.drop 2 = ["OUT DX, AL"] := by decide
theorem test_line_V_DT58 : (first [0x8D, 0x46, 0xFE]).listing.drop 2 = ["LEA AX, [BP - 2]"] := by decide
theorem test_line_V_DT62 : (first [0xC4, 0x3E, 0x00, 0x10]).listing.drop 2 = ["LES DI, [4096]"] := by decide
theorem test_line_V_AR34 : (first [0xFF, 0xC8]).listing.drop 2 = ["DEC AX"] := by decide
theorem test_line_V_AR40 : (first [0xF7, 0x74, 0x10]).listing.drop 2 = ["DIV WORD [SI + 16]"] := by decide
theorem test_line_V_AR47 : (first [0xD4, 0x0A]).listing.drop 2 = ["AAM"] := by decide
theorem test_line_V_LO6 : (first [0xD3, 0xE0]).listing.drop 2 = ["SHL AX, CL"] := by decide
theorem test_line_V_LO15 : (first [0xD3, 0xBF, 0x00, 0x10]).listing.drop 2 = ["SAR WORD [BX + 4096], CL"] := by decide
theorem test_line_V_LO22 : (first [0x81, 0x66, 0x00, 0x00, 0x10]).listing.drop 2 = ["AND WORD [BP + 0], 4096"] := by decide
theorem test_line_V_LO32 : (first [0x85, 0x07]).listing.drop 2 = ["TEST [BX], AX"] := by decide
theorem test_line_V_ST2 : (first [0xA5]).listing.drop 2 = ["MOVSW"] := by decide
theorem test_line_V_ST16 : (first [0xF2, 0xA6]).listing.drop 2 = ["REPNE CMPSB"] := by decide
theorem test_line_V_ST20 : (first [0xF0, 0xF3, 0xA4]).listing.drop 2 = ["LOCK REP MOVSB"] := by decide
theorem test_line_V_CT1 : (first [0xEB, 0x7F]).listing.drop 2 = ["JMP $+129"] := by decide
theorem test_line_V_CT24 : (first [0xE2, 0xF0]).listing.drop 2 = ["LOOP $-14"] := by decide
theorem test_line_V_CT26 : (first [0xF0, 0x74, 0x00]).listing.drop 2 = ["LOCK JZ $+3"] := by decide
theorem test_line_V_CT32 : (first [0xE9, 0xFC, 0xFF]).listing.drop 2 = ["JMP 65535"] := by decide
theorem test_line_V_CT35 : (first [0x9A, 0x78, 0x56, 0x34, 0x12]).listing.drop 2 = ["CALL 4660:22136"] := by decide
theorem test_line_V_CT40 : (first [0x2E, 0xFF, 0x16, 0x00, 0x10]).listing.drop 2 = ["CALL CS:[4096]"] := by decide
theorem test_line_V_CT51 : (first [0xC2, 0xFF, 0xFF]).listing.drop 2 = ["RET 65535"] := by decide
theorem test_line_V_CT55 : (first [0xCD, 0xFF]).listing.drop 2 = ["INT 255"] := by decide
theorem test_line_V_PC10 : (first [0xF0, 0x90]).listing.drop 2 = ["LOCK NOP"] := by decide
theorem test_line_V_PC17 : (first [0x3E, 0x8B, 0x0E, 0x00, 0x10]).listing.drop 2 = ["MOV CX, DS:[4096]"] := by decide
theorem test_line_V_PC19 : (first [0xF0, 0x2E, 0xFE, 0x07]).listing.drop 2 = ["LOCK INC BYTE CS:[BX]"] := by decide
/-- V-CT33: `LoadBase = 256`. -/
theorem test_line_V_CT33 :
    (afterStep (State.resetWith [0xE8, 0x00, 0x00] "t" 256)).listing.drop 2 = ["CALL 259"] := by decide
/-- The header (R167), the cursor past the instruction and no other change (R111). -/
theorem test_step_whole :
    step (load [0x89, 0xD8, 0xF4]) =
      .next ⟨[0x89, 0xD8, 0xF4], "t", 0, 2, .running, none, ["; t", "bits 16", "MOV AX, BX"]⟩ := eq_next (by decide)
/-- P2 of section 3, step 9: the near target uses `LoadBase`, the cursor and the displacement (R134). -/
theorem test_near_target_P2 : nearTarget 0 ⟨false, none, none, 22, 25, 256⟩ = 281 := by decide
/-- The listing with its line ends (R168). -/
theorem test_serialised : (first [0xC3]).serialised = "; t\nbits 16\nRET\n" := by decide

/-! ## Error records of spec/95_test_vectors.md; cursor and listing stay (R387) -/

theorem test_error_S5 : (first [0x88]).error = some ⟨.unexpectedEndOfStream, 0, 1, none, none, some 1⟩ := by decide
theorem test_error_V_E3 : (first [0xFE, 0x38]).error = some ⟨.invalidField, 0, 1, some 0x38, some .reg, none⟩ := by decide
theorem test_error_V_E4 : (first [0x2E, 0xFF, 0xD8]).error = some ⟨.invalidField, 0, 2, some 0xD8, some .mod, none⟩ := by decide
theorem test_error_V_E5 : (first [0x2E, 0xB8]).error = some ⟨.invalidField, 0, 0, some 0x2E, some .segmentOverride, none⟩ := by decide
theorem test_error_V_E6 : (first [0xF3, 0x0F]).error = some ⟨.invalidField, 0, 1, some 0x0F, some .repFollow, none⟩ := by decide
theorem test_error_V_E8 : (first [0x8B, 0x86]).error = some ⟨.unexpectedEndOfStream, 0, 2, none, none, some 2⟩ := by decide
theorem test_error_V_E9 : (first [0x8B, 0x86, 0x34]).error = some ⟨.unexpectedEndOfStream, 0, 2, none, none, some 1⟩ := by decide
theorem test_error_V_E14 : (first [0x2E, 0x8C, 0xE0]).error = some ⟨.invalidField, 0, 2, some 0xE0, some .sreg, none⟩ := by decide
theorem test_error_V_AR49 : (first [0xD5, 0x0B]).error = some ⟨.invalidField, 0, 1, some 0x0B, some .aamAadBase, none⟩ := by decide
theorem test_error_V_CT60 : (first [0xE8, 0x00]).error = some ⟨.unexpectedEndOfStream, 0, 1, none, none, some 1⟩ := by decide
theorem test_error_V_CT62 : (first [0x9A, 0x78, 0x56, 0x34]).error = some ⟨.unexpectedEndOfStream, 0, 3, none, none, some 1⟩ := by decide
theorem test_error_V_PC11 : (first [0xF0, 0xF0, 0x90]).error = some ⟨.invalidField, 0, 1, some 0xF0, some .prefixByte, none⟩ := by decide
theorem test_error_V_PC12 : (first [0x2E, 0x26, 0x8B, 0x00]).error = some ⟨.invalidField, 0, 1, some 0x26, some .prefixByte, none⟩ := by decide
theorem test_error_V_PC13 : (first [0x2E, 0xF0, 0xA0]).error = some ⟨.invalidField, 0, 1, some 0xF0, some .prefixByte, none⟩ := by decide
theorem test_error_V_PC21 : (first [0x2E, 0x8B, 0xC0]).error = some ⟨.invalidField, 0, 0, some 0x2E, some .segmentOverride, none⟩ := by decide
theorem test_error_V_U1 : (first [0x0F]).error = some ⟨.unknownOpcode, 0, 0, some 0x0F, none, none⟩ := by decide
theorem test_error_V_U32 : (first [0x2E, 0xD8]).error = some ⟨.unknownOpcode, 0, 1, some 0xD8, none, none⟩ := by decide
theorem test_error_V_G46 : (first [0xFF, 0x3F]).error = some ⟨.invalidField, 0, 1, some 0x3F, some .reg, none⟩ := by decide
theorem test_error_V_G58 : (first [0xC6, 0x0F, 0x05]).error = some ⟨.invalidField, 0, 1, some 0x0F, some .reg, none⟩ := by decide
theorem test_error_entry :
    step (load [0xD8]) =
      .next ⟨[0xD8], "t", 0, 0, .error, some ⟨.unknownOpcode, 0, 0, some 0xD8, none, none⟩, ["; t", "bits 16"]⟩ :=
  eq_next (by decide)
theorem test_error_codes :
    [ErrorKind.unexpectedEndOfStream, .unknownOpcode, .invalidField].map ErrorKind.code = [1, 2, 3] := by decide
theorem test_field_names :
    [FieldName.reg, .mod, .sreg, .aamAadBase, .prefixByte, .repFollow, .segmentOverride].map FieldName.text =
      ["reg", "mod", "sreg", "aam_aad_base", "prefix", "rep_follow", "segment_override"] := by decide

/-! ## Witnesses: states and operands that meet the hypotheses of each obligation -/

/-- O3. -/
theorem test_hyp_InvReset : isPlain "t" = true ∧ isPlain Config.sourceName = true ∧ isPlain "" = true := by decide

theorem inv_nop : Inv (load [0x90]) :=
  { cursor_le := by decide
    error_iff := by decide
    done_end := by decide
    error_fields := by intro e he; cases he
    error_place := by intro e he; cases he
    headers := by decide
    lines_le := by decide
    name_plain := by decide
    lines_plain := by decide }

theorem inv_empty : Inv (load []) :=
  { cursor_le := by decide
    error_iff := by decide
    done_end := by decide
    error_fields := by intro e he; cases he
    error_place := by intro e he; cases he
    headers := by decide
    lines_le := by decide
    name_plain := by decide
    lines_plain := by decide }

theorem inv_refused : Inv (load [0x0F]) :=
  { cursor_le := by decide
    error_iff := by decide
    done_end := by decide
    error_fields := by intro e he; cases he
    error_place := by intro e he; cases he
    headers := by decide
    lines_le := by decide
    name_plain := by decide
    lines_plain := by decide }

/-- The state after a decode error meets the invariant too. -/
theorem test_inv_error : Inv (first [0x0F]) :=
  { cursor_le := by decide
    error_iff := by decide
    done_end := by decide
    error_fields := by intro e he; cases he; decide
    error_place := by
      intro e he
      cases he
      refine ⟨by decide, by decide, ?_, ?_⟩
      · intro b hb; cases hb; decide
      · intro n hn; cases hn
    headers := by decide
    lines_le := by decide
    name_plain := by decide
    lines_plain := by decide }

/-- O4 and O55: an instruction, the end, an error. -/
theorem test_hyp_InvStep_next :
    Inv (load [0x90]) ∧
    step (load [0x90]) = .next ⟨[0x90], "t", 0, 1, .running, none, ["; t", "bits 16", "NOP"]⟩ := ⟨inv_nop, eq_next (by decide)⟩
theorem test_hyp_InvStep_done :
    Inv (load []) ∧ step (load []) = .next ⟨[], "t", 0, 0, .done, none, ["; t", "bits 16"]⟩ := ⟨inv_empty, eq_next (by decide)⟩
theorem test_hyp_InvStep_error :
    Inv (load [0x0F]) ∧
    step (load [0x0F]) =
      .next ⟨[0x0F], "t", 0, 0, .error, some ⟨.unknownOpcode, 0, 0, some 0x0F, none, none⟩, ["; t", "bits 16"]⟩ :=
  ⟨inv_refused, eq_next (by decide)⟩

/-- O5: each of the three transitions. -/
theorem test_hyp_StepTransitions :
    step (load [0x90]) = .next (first [0x90]) ∧ (first [0x90]).status = .running ∧
    step (load []) = .next (first []) ∧ (first []).status = .done ∧
    step (load [0x88]) = .next (first [0x88]) ∧ (first [0x88]).status = .error :=
  ⟨eq_next (by decide), by decide, eq_next (by decide), by decide, eq_next (by decide), by decide⟩

/-- O6, O7. -/
theorem test_hyp_RunningStateSteps : (load [0x90]).status = .running ∧ (load []).status = .running := by decide
theorem test_hyp_TerminalStatesStop : (first []).status = .done ∧ (first [0x0F]).status = .error := by decide

/-- O8: an error of each kind. -/
theorem test_hyp_ErrorEntry :
    (load [0x88]).status = .running ∧ (load [0x88]).cursor ≠ (load [0x88]).len ∧
    (decodeOne [0x88] 0).toOption = none ∧ (decodeOne [0x0F] 0).toOption = none ∧
    (decodeOne [0x8D, 0xC0] 0).toOption = none := by decide

/-- O9. -/
theorem test_hyp_StepRunsDecodedInstruction :
    (load [0x89, 0xD8]).status = .running ∧ (load [0x89, 0xD8]).cursor ≠ (load [0x89, 0xD8]).len ∧
    (decodeOne [0x89, 0xD8] 0).toOption = some (.movRmReg .rmFirst .word 3 (.reg 0), 2) := by decide

/-- O10, from a state that no run reaches as well. -/
theorem test_hyp_InstructionFrame :
    exec .nop (load [0x90]) = .next (first [0x90]) ∧
    exec .nop (first [0x0F]) = .next ((first [0x0F]).emit "NOP" 1) :=
  ⟨eq_next (by decide), eq_next (by decide)⟩

/-- O11: the shortest and the longest instruction. -/
theorem test_hyp_InstructionCompletes :
    WellFormed .nop ∧ WellFormed (.lock (.seg .ds (.movRmImm (.mem (.disp16 .bp 0xFFFF)) (.imm16 0xFFFF)))) := by decide

/-- O12: at the start, and inside a buffer with bytes after it. -/
theorem test_hyp_DecodeOfEncode :
    WellFormed (.int 0x21) ∧ [0xCD#8, 0x21#8].drop 0 = encode (.int 0x21) ++ [] ∧
    [0x90#8, 0xCD#8, 0x21#8, 0xF4#8].drop 1 = encode (.int 0x21) ++ [0xF4#8] := by decide

/-- O13, O23, O24. -/
theorem test_hyp_DecodeIsSound :
    (decodeOne [0x90, 0xF0, 0x2E, 0xFE, 0x07] 1).toOption =
      some (.lock (.seg .cs (.incRm .byte (.mem (.base .bx)))), 5) := by decide
theorem test_hyp_LaterBytesDoNotMatter :
    (decodeOne [0x8D, 0xC0] 0).toOption = none ∧
    (first [0x8D, 0xC0]).error = some ⟨.invalidField, 0, 1, some 0xC0, some .mod, none⟩ := by decide
theorem test_hyp_EarlierBytesDoNotMatter :
    (decodeOne [0x88] 0).toOption = none ∧ (decodeOne [0x90] 0).toOption = some (.nop, 1) := by decide

/-- O14, the clauses with a premise: each `mod`, both values of `w`, `s` and of bit 3. -/
theorem test_hyp_LengthByForm_rm :
    (Rm.reg 7).wf = true ∧ (Rm.reg 7).bytes 7 = 0xFF#8 :: [] ∧
    (Rm.mem (.direct 0x1234)).wf = true ∧ (Rm.mem (.direct 0x1234)).bytes 0 = 0x06#8 :: [0x34#8, 0x12#8] ∧
    (Rm.mem (.base .bx)).wf = true ∧ (Rm.mem (.base .bx)).bytes 0 = 0x07#8 :: [] ∧
    (Rm.mem (.disp8 .bp 0)).wf = true ∧ (Rm.mem (.disp8 .bp 0)).bytes 0 = 0x46#8 :: [0x00#8] ∧
    (Rm.mem (.disp16 .bxSi 1)).wf = true ∧ (Rm.mem (.disp16 .bxSi 1)).bytes 0 = 0x80#8 :: [0x01#8, 0x00#8] := by decide
theorem test_hyp_LengthByForm_imm :
    encode (.addRmImm (.reg 1) (.imm8 true 0xFF)) = 0x82#8 :: [0xC1#8, 0xFF#8] ∧
    encode (.addRmImm (.reg 1) (.sext8 0xFF)) = 0x83#8 :: [0xC1#8, 0xFF#8] ∧
    encode (.addRmImm (.reg 1) (.imm16 0xFFFF)) = 0x81#8 :: [0xC1#8, 0xFF#8, 0xFF#8] ∧
    encode (.movRmImm (.reg 0) (.imm8 5)) = 0xC6#8 :: [0xC0#8, 0x05#8] ∧
    encode (.movRmImm (.reg 1) (.imm16 0x1234)) = 0xC7#8 :: [0xC1#8, 0x34#8, 0x12#8] ∧
    encode (.addAccImm (.imm8 0x34)) = 0x04#8 :: [0x34#8] ∧
    encode (.cmpAccImm (.imm16 0x8000)) = 0x3D#8 :: [0x00#8, 0x80#8] ∧
    encode (.movRegImm (.r8 0 0xFF)) = 0xB0#8 :: [0xFF#8] ∧
    encode (.movRegImm (.r16 4 0x8000)) = 0xBC#8 :: [0x00#8, 0x80#8] ∧
    WellFormed (.movRegImm (.r16 4 0x8000)) := by decide

/-- O16: with and without prefixes. -/
theorem test_hyp_RefusedOpcodes :
    0x0F#8 ∈ refusedBytes ∧ 0xF1#8 ∈ refusedBytes ∧
    [0x0F#8].drop 0 = (BodyPrefix.mk false none).bytes ++ 0x0F#8 :: [] ∧
    [0x90#8, 0xF0#8, 0x2E#8, 0xF1#8, 0x00#8].drop 1 = (BodyPrefix.mk true (some .cs)).bytes ++ 0xF1#8 :: [0x00#8] := by
  decide

/-- O18: the last byte, and the end. -/
theorem test_hyp_ReadByteRule : 1 < [0x12#8, 0x34#8].length ∧ [0x12#8, 0x34#8].length ≤ 2 := by decide
/-- O19: a whole word, one byte, none. -/
theorem test_hyp_ReadWordRule :
    0 + 2 ≤ [0x12#8, 0x34#8].length ∧ (1 ≤ [0x12#8, 0x34#8].length ∧ [0x12#8, 0x34#8].length < 1 + 2) ∧
    (2 ≤ [0x12#8, 0x34#8].length ∧ [0x12#8, 0x34#8].length < 2 + 2) := by decide
/-- O20. -/
theorem test_hyp_MemoryIsTheBuffer : 0 < (load [0x90]).len ∧ (load [0x90]).len ≤ 1 := by decide

/-- O21: a read that fails whole and one that fails half, and a record for each field (R382 to R384). -/
theorem test_hyp_ErrorRecordFields :
    0 ≤ [0x8B#8, 0x86#8].length ∧
    (first [0x8B, 0x86]).error = some ⟨.unexpectedEndOfStream, 0, 2, none, none, some 2⟩ ∧
    (first [0x8B, 0x86, 0x34]).error = some ⟨.unexpectedEndOfStream, 0, 2, none, none, some 1⟩ ∧
    (first [0xD8]).error = some ⟨.unknownOpcode, 0, 0, some 0xD8, none, none⟩ ∧
    (first [0x2E, 0xD8]).error = some ⟨.unknownOpcode, 0, 1, some 0xD8, none, none⟩ := by decide

theorem test_hyp_ErrorRecordFields_fields :
    (first [0xF0, 0x2E, 0xFE, 0x38]).error = some ⟨.invalidField, 0, 3, some 0x38, some .reg, none⟩ ∧
    (first [0x2E, 0xFF, 0xD8]).error = some ⟨.invalidField, 0, 2, some 0xD8, some .mod, none⟩ ∧
    (first [0x8C, 0xE0]).error = some ⟨.invalidField, 0, 1, some 0xE0, some .sreg, none⟩ ∧
    (first [0xF0, 0xD4, 0x0B]).error = some ⟨.invalidField, 0, 2, some 0x0B, some .aamAadBase, none⟩ ∧
    (first [0xF0, 0xF0]).error = some ⟨.invalidField, 0, 1, some 0xF0, some .prefixByte, none⟩ ∧
    (first [0xF0, 0x26, 0x3E]).error = some ⟨.invalidField, 0, 2, some 0x3E, some .prefixByte, none⟩ ∧
    (first [0xF3, 0x90]).error = some ⟨.invalidField, 0, 1, some 0x90, some .repFollow, none⟩ ∧
    (first [0xF0, 0x2E, 0xB8]).error = some ⟨.invalidField, 0, 1, some 0x2E, some .segmentOverride, none⟩ := by decide

/-- O22: nothing of the instruction, and all but its last byte. -/
theorem test_hyp_TruncatedInstruction :
    WellFormed (.callNear 0) ∧ 0 ≤ ([] : List Byte).length ∧ 0 < (encode (.callNear 0)).length ∧
    ([] : List Byte).drop 0 = (encode (.callNear 0)).take 0 ∧ 2 < (encode (.callNear 0)).length ∧
    [0xE8#8, 0x00#8].drop 0 = (encode (.callNear 0)).take 2 := by decide

/-- O25: a member of each group's reserved rows, first and last. -/
theorem test_hyp_ReservedGroupEncodings :
    ([0xD0#8, 0xD1#8, 0xD2#8, 0xD3#8], [6#3]) ∈ reservedRegs ∧ ([0xFE#8], [2#3, 3#3, 4#3, 5#3, 6#3, 7#3]) ∈ reservedRegs ∧
    [0xFE#8, 0xFF#8].drop 0 = (BodyPrefix.mk false none).bytes ++ 0xFE#8 :: modRMByte 3 7 7 :: [] ∧
    [0xF0#8, 0x3E#8, 0xD0#8, 0x37#8].drop 0 = (BodyPrefix.mk true (some .ds)).bytes ++ 0xD0#8 :: modRMByte 0 6 7 :: [] := by
  decide

/-- O26: each clause at its bounds. -/
theorem test_hyp_InvalidFieldEncodings_mod :
    [0x8D#8, 0xC0#8].drop 0 = (BodyPrefix.mk false none).bytes ++ 0x8D#8 :: modRMByte 3 0 0 :: [] ∧
    [0x2E#8, 0xFF#8, 0xD8#8].drop 0 = (BodyPrefix.mk false (some .cs)).bytes ++ 0xFF#8 :: modRMByte 3 3 0 :: [] ∧
    [0xFF#8, 0xEF#8].drop 0 = (BodyPrefix.mk false none).bytes ++ 0xFF#8 :: modRMByte 3 5 7 :: [] := by decide
theorem test_hyp_InvalidFieldEncodings_sreg :
    4 ≤ (4#3).toNat ∧ [0x8C#8, 0xE0#8].drop 0 = (BodyPrefix.mk false none).bytes ++ 0x8C#8 :: modRMByte 3 4 0 :: [] ∧
    4 ≤ (7#3).toNat ∧ [0xF0#8, 0x8E#8, 0x38#8].drop 0 = (BodyPrefix.mk true none).bytes ++ 0x8E#8 :: modRMByte 0 7 0 :: [] := by
  decide
theorem test_hyp_InvalidFieldEncodings_base :
    0x0B#8 ≠ 0x0A#8 ∧ [0xD5#8, 0x0B#8].drop 0 = (BodyPrefix.mk false none).bytes ++ 0xD5#8 :: 0x0B#8 :: [] ∧
    0x09#8 ≠ 0x0A#8 ∧ [0xF0#8, 0xD4#8, 0x09#8].drop 0 = (BodyPrefix.mk true none).bytes ++ 0xD4#8 :: 0x09#8 :: [] := by decide

/-- O27: each clause. -/
theorem test_hyp_PrefixMisuse :
    [0xF0#8, 0xF0#8, 0x90#8].drop 0 = 0xF0#8 :: 0xF0#8 :: [0x90#8] ∧
    [0x2E#8, 0x26#8].drop 0 = (BodyPrefix.mk false (some .cs)).bytes ++ 0x26#8 :: [] ∧
    [0xF0#8, 0x3E#8, 0xF0#8].drop 0 = (BodyPrefix.mk true (some .ds)).bytes ++ 0xF0#8 :: [] ∧
    0xA8#8 ∉ [0xA4#8, 0xA5#8, 0xA6#8, 0xA7#8, 0xAA#8, 0xAB#8, 0xAC#8, 0xAD#8, 0xAE#8, 0xAF#8] ∧
    [0xF0#8, 0xF2#8, 0xA8#8].drop 0 = (BodyPrefix.mk true none).bytes ++ 0xF2#8 :: 0xA8#8 :: [] ∧
    [0xF3#8, 0xF3#8].drop 0 = (BodyPrefix.mk false none).bytes ++ 0xF3#8 :: 0xF3#8 :: [] := by decide

/-- O28: no operand, a register operand, an implied memory operand. -/
theorem test_hyp_SegmentOverrideNeedsMemory :
    (WellFormed .nop ∧ Instr.nop.isPrefixed = false ∧ Instr.nop.hasMem = false ∧
      [0x2E#8, 0x90#8].drop 0 = (BodyPrefix.mk false (some .cs)).bytes ++ (encode .nop ++ [])) ∧
    (WellFormed (.movRmReg .regFirst .word 0 (.reg 0)) ∧ (Instr.movRmReg .regFirst .word 0 (.reg 0)).hasMem = false ∧
      [0xF0#8, 0x36#8, 0x8B#8, 0xC0#8].drop 0 =
        (BodyPrefix.mk true (some .ss)).bytes ++ (encode (.movRmReg .regFirst .word 0 (.reg 0)) ++ [])) ∧
    (WellFormed (.movs .byte) ∧ (Instr.movs .byte).isPrefixed = false ∧ (Instr.movs .byte).hasMem = false) := by decide

/-- O28, no byte behind the deciding one: `2E B8` (V-E5), and a ModRM byte of mod = 11 whose immediate is missing. -/
theorem test_hyp_SegmentOverrideNeedsMemory_short :
    LacksMemory 0xB8#8 [] ∧ [0x2E#8, 0xB8#8].drop 0 = (BodyPrefix.mk false (some .cs)).bytes ++ 0xB8#8 :: [] ∧
    LacksMemory 0x81#8 [0xC0#8] ∧
    [0xF0#8, 0x3E#8, 0x81#8, 0xC0#8].drop 0 = (BodyPrefix.mk true (some .ds)).bytes ++ 0x81#8 :: [0xC0#8] :=
  ⟨⟨by decide, by decide, .inl ⟨by decide, by decide⟩⟩, by decide,
   ⟨by decide, by decide, .inr ⟨by decide, 0, 0, [], by decide, by decide, by decide, by decide⟩⟩, by decide⟩

/-- V-E5, and the same with the immediate of a register form missing (R386(e)). -/
theorem test_segment_check_before_data :
    (first [0x2E, 0xB8]).error = some ⟨.invalidField, 0, 0, some 0x2E, some .segmentOverride, none⟩ ∧
    (first [0xF0, 0x3E, 0x81, 0xC0]).error = some ⟨.invalidField, 0, 1, some 0x3E, some .segmentOverride, none⟩ := by decide

/-- O15: a row of GRP3 of each shape, a row without a ModRM byte, a prefix row (R78 entries 92, 55, 58). -/
theorem test_hyp_DispatchTableOrdered :
    WellFormed (.testRmImm (.reg 0) (.imm8 1)) ∧ encode (.testRmImm (.reg 0) (.imm8 1)) = [0xF6, 0xC0, 0x01] ∧
    (Instr.testRmImm (.reg 0) (.imm8 1)).shape = .immediateToRegMem ∧
    WellFormed (.not .byte (.reg 0)) ∧ encode (.not .byte (.reg 0)) = [0xF6, 0xD0] ∧
    (Instr.not .byte (.reg 0)).shape = .regMemToFromReg ∧
    WellFormed (.jmpShort 0) ∧ encode (.jmpShort 0) = [0xEB, 0x00] ∧ (Instr.jmpShort 0).shape = .shortJump ∧
    (Instr.rep (.movs .byte)).isPrefixed = true ∧ encode (.rep (.movs .byte)) = [0xF3, 0xA4] ∧
    (Instr.rep (.movs .byte)).shape = .stringRepeat := by decide

/-- The shapes of R78 entries 1 and 92, and that a reserved entry of a group has none. -/
theorem test_shapes :
    Target.refuse.shapeAt 0 = none ∧ (Target.group .grp3).shapeAt 0 = some .immediateToRegMem ∧
    (Target.group .grp3).shapeAt 1 = none ∧ (Target.group .grp3).shapeAt 2 = some .regMemToFromReg := by decide

/-- O29 to O37: the forms with an r/m operand, a register without a prefix and memory behind both prefixes. -/
theorem test_hyp_forms_register :
    WellFormed ((BodyPrefix.mk false none).wrap (.movRmReg .regFirst .byte 7 (.reg 7))) ∧
    WellFormed ((BodyPrefix.mk true none).wrap (.xchgRmReg .word 0 (.reg 0))) ∧
    WellFormed ((BodyPrefix.mk false none).wrap (.movSregRm .cs (.reg 0))) ∧
    WellFormed ((BodyPrefix.mk false none).wrap (.addRmImm (.reg 1) (.sext8 0x80))) ∧
    WellFormed ((BodyPrefix.mk false none).wrap (.testRmImm (.reg 3) (.imm16 0xFFFF))) ∧
    WellFormed ((BodyPrefix.mk true none).wrap (.idiv .byte (.reg 4))) ∧
    WellFormed ((BodyPrefix.mk false none).wrap (.popRm (.reg 0))) ∧
    WellFormed ((BodyPrefix.mk false none).wrap (.callRm (.reg 0))) ∧
    WellFormed ((BodyPrefix.mk false none).wrap (.sar .cl .word (.reg 7))) := by decide
theorem test_hyp_forms_memory :
    WellFormed ((BodyPrefix.mk true (some .ds)).wrap (.movRmReg .rmFirst .byte 0 (.mem (.disp8 .bp 0)))) ∧
    WellFormed ((BodyPrefix.mk true (some .es)).wrap (.testRmReg .word 0 (.mem (.direct 0xFFFF)))) ∧
    WellFormed ((BodyPrefix.mk false (some .ss)).wrap (.lea 7 (.disp16 .bxSi 0x8000))) ∧
    WellFormed ((BodyPrefix.mk true (some .cs)).wrap (.movRmSreg .ds (.mem (.base .bx)))) ∧
    WellFormed ((BodyPrefix.mk true (some .cs)).wrap (.cmpRmImm (.mem (.base .si)) (.imm8 true 0))) ∧
    WellFormed ((BodyPrefix.mk true (some .cs)).wrap (.movRmImm (.mem (.disp8 .di 0xFF)) (.imm8 0))) ∧
    WellFormed ((BodyPrefix.mk false (some .cs)).wrap (.incRm .word (.mem (.base .bpDi)))) ∧
    WellFormed ((BodyPrefix.mk false (some .cs)).wrap (.pushRm (.mem (.direct 0)))) ∧
    WellFormed ((BodyPrefix.mk false (some .cs)).wrap (.jmpRm (.mem (.direct 0)))) ∧
    WellFormed ((BodyPrefix.mk false (some .cs)).wrap (.callFarMem (.direct 0))) ∧
    WellFormed ((BodyPrefix.mk false (some .cs)).wrap (.rol .one .byte (.mem (.base .bx)))) := by decide
/-- O41. -/
theorem test_hyp_ShortRegisterRows : (1#3 : RegField) ≠ 0 ∧ (7#3 : RegField) ≠ 0 ∧ Sreg.es ≠ .cs ∧ Sreg.ds ≠ .cs := by decide
/-- O49. -/
theorem test_hyp_PrefixedInstructionsComplete :
    WellFormed (.lock (.rep (.movs .byte))) ∧ WellFormed (.lock .nop) ∧ WellFormed (.seg .es (.movAccMem .word 0)) ∧
    WellFormed (.rep (.stos .word)) ∧ WellFormed (.repne (.scas .byte)) := by decide

/-- O50: a spelling that begins with `0`, and one that does not. -/
theorem test_hyp_DecimalSpelling : dec 0 = "0" ∧ dec 65535 = "65535" ∧ dec 10 = "10" := by decide
/-- O52: a direct address, and the table's last row. -/
theorem test_hyp_RegisterTables :
    (ModRM.of 0x06 0).mod = 0 ∧ (readMem (ModRM.of 0x06 0) ⟨0, 1, [0x34, 0x12]⟩).toOption = some (.direct 0x1234, ⟨0, 3, []⟩) ∧
    (ModRM.of 0x07 0).mod = 0 ∧ (readMem (ModRM.of 0x07 0) ⟨0, 1, []⟩).toOption = some (.base .bx, ⟨0, 1, []⟩) := by decide
/-- O54. -/
theorem test_hyp_InstructionPointer : (Latches.none 0 3 0).loadBase = (load [0xE8, 0x00, 0x00]).loadBase := by decide
/-- O56: the same inputs with another listing and another name. -/
theorem test_hyp_SameInputsSameStep :
    let s := load [0x90]
    let u : State := ⟨[0x90], "u", 0, 0, .running, none, []⟩
    s.buf = u.buf ∧ s.loadBase = u.loadBase ∧ s.cursor = u.cursor ∧ s.status = u.status ∧ s.error = u.error ∧
    step s = .next (first [0x90]) ∧ step (first []) = .fault .stepNotEnabled :=
  ⟨rfl, rfl, rfl, rfl, rfl, eq_next (by decide), rfl⟩
/-- O57: at the start and at the end. -/
theorem test_hyp_TerminationBound :
    (load [0x90]).cursor ≤ (load [0x90]).len ∧ (first [0x90]).cursor ≤ (first [0x90]).len := by decide
/-- O58. -/
theorem test_hyp_ProgramListing :
    (∀ i ∈ ([] : List Instr), WellFormed i) ∧
    (∀ i ∈ [Instr.cld, .rep (.movs .byte), .seg .cs (.movRmReg .regFirst .byte 0 (.mem (.base .bx)))], WellFormed i) := by
  decide
/-- O59: a buffer that is a program, and one that is none. -/
theorem test_hyp_DoneExactlyForPrograms :
    (∀ i ∈ [Instr.int 0x21, .ret], WellFormed i) ∧ [0xCD#8, 0x21#8, 0xC3#8] = programBytes [.int 0x21, .ret] ∧
    (afterSteps 2 (load [0x0F])).status ≠ .done := by decide
/-- O60: an error at once, and after an instruction. -/
theorem test_hyp_ErrorIsPrecise :
    (afterSteps 2 (load [0x0F])).status = .error ∧ (afterSteps 3 (load [0x90, 0x0F])).status = .error := by decide

end Sys2Proof.Tests
end

section
/-! Decimal spelling (R14): O50. -/

namespace Sys2Proof

open Machine

/-- The digit of a number from 1 to 9 is not `0`. -/
theorem digitChar_ne_zero : ∀ n < 10, n ≠ 0 → Nat.digitChar n ≠ '0' := by decide

/-- Only the spelling of 0 begins with `0`: the first digit is that of the last quotient by 10 that is not 0. -/
theorem eq_zero_of_head_toDigits (n : Nat) (h : (Nat.toDigits 10 n).head? = some '0') : n = 0 := by
  induction n using Nat.strongRecOn with
  | ind n ih =>
    by_cases hn : n < 10
    · rw [Nat.toDigits_of_lt_base hn] at h
      by_contra hpos
      exact digitChar_ne_zero n hn hpos (by simpa using h)
    · rw [Nat.toDigits_of_base_le (by decide) (by omega), List.head?_append_of_ne_nil _ Nat.toDigits_ne_nil] at h
      have hquot : n / 10 = 0 := ih (n / 10) (by omega) h
      omega

/-- Settles O50: digits by the library's `Nat.toDigits`, the leading digit by strong induction, the value by
`Nat.ofDigitChars_ten_toDigits`. -/
theorem decimalSpelling : Obligations.DecimalSpelling := by
  intro n
  have hdigits : (dec n).toList = Nat.toDigits 10 n := by simp [dec]
  refine ⟨dec_ne_nil n, dec_digits n, fun h => ?_, ?_⟩
  · rw [hdigits] at h
    obtain rfl := eq_zero_of_head_toDigits n h
    exact ⟨rfl, rfl⟩
  · rw [hdigits]
    exact Nat.ofDigitChars_ten_toDigits

end Sys2Proof
end

section
/-! What a form routine can answer: one of the instructions that the constructor in the dispatch target makes (R19, R112). -/

namespace Sys2Proof

open Machine

/-- `P` holds of every instruction the form's constructor makes. -/
def RegMemForm.All (P : Instr → Prop) : RegMemForm → Prop
  | .rmRegD mk => ∀ d w reg x, P (mk d w reg x)
  | .rmReg mk  => ∀ w reg x, P (mk w reg x)
  | .regMem mk => ∀ reg m, P (mk reg m)
  | .rmSreg mk => ∀ sr x, P (mk sr x)
  | .rm mk     => ∀ w x, P (mk w x)
  | .rm16 mk   => ∀ x, P (mk x)
  | .mem16 mk  => ∀ m, P (mk m)
  | .shift mk  => ∀ v w x, P (mk v w x)

/-- `P` holds of every instruction the group's row makes. -/
def GroupRow.All (P : Instr → Prop) : GroupRow → Prop
  | .regMemToFromReg f               => f.All P
  | .immediateToRegMem (.rmImmSW mk) => ∀ x im, P (mk x im)
  | .immediateToRegMem (.rmImmW mk)  => ∀ x im, P (mk x im)

/-- `P` holds of every instruction the target makes, a group's with `k` in the ModRM reg field. -/
def Target.All (P : Instr → Prop) (k : BitVec 3) : Target → Prop
  | .refuse | .prefixByte _ => True
  | .group g => ∀ row, groupTable g k = some row → row.All P
  | .regMemToFromReg f => f.All P
  | .immediateToAccumulator (.accImm mk) => ∀ im, P (mk im)
  | .immediateToAccumulator (.accMem mk) => ∀ w a, P (mk w a)
  | .immediateToAccumulator (.port8 mk)  => ∀ w v, P (mk w v)
  | .immediateToRegister mk => ∀ ri, P (mk ri)
  | .shortJump mk => ∀ v, P (mk v)
  | .nearProcLabel mk => ∀ v, P (mk v)
  | .farProcLabel mk => ∀ u v, P (mk u v)
  | .registerOnly mk => ∀ r, P (mk r)
  | .segmentRegisterOnly mk => ∀ sr, P (mk sr)
  | .noOperand (.portDx mk) => ∀ w, P (mk w)
  | .noOperand (.str mk) => ∀ w, P (mk w)
  | .noOperand (.bare i) => P i
  | .other (.imm8 mk) => ∀ v, P (mk v)
  | .other (.imm16 mk) => ∀ v, P (mk v)
  | .other (.aa i) => P i

/-- If an instruction is answered, `P` holds of it. -/
def Answers (P : Instr → Prop) (r : Except ErrorRecord (Instr × Cursor)) : Prop := ∀ i c, r = .ok (i, c) → P i

section
variable {P : Instr → Prop}

theorem answers_ok {i : Instr} {c : Cursor} (h : P i) : Answers P (.ok (i, c)) := by
  rintro _ _ ⟨⟩; exact h

theorem answers_error {e : ErrorRecord} : Answers P (.error e) := by rintro _ _ ⟨⟩

theorem answers_bind {α : Type} {r : Except ErrorRecord α} {f : α → Except ErrorRecord (Instr × Cursor)}
    (h : ∀ a, Answers P (f a)) : Answers P (r >>= f) := by
  intro i c hr
  obtain ⟨a, -, ha⟩ := bind_eq_ok hr
  exact h a i c ha

theorem answers_ite {p : Prop} [Decidable p] {r r' : Except ErrorRecord (Instr × Cursor)}
    (h : Answers P r) (h' : Answers P r') : Answers P (if p then r else r') := by
  split
  · exact h
  · exact h'

theorem regMemRoutine_answers {f : RegMemForm} (h : f.All P) (m : ModRM) (b : Byte) (sg : Option SegLatch)
    (c : Cursor) : Answers P (regMemRoutine f m b sg c) := by
  cases f with
  | rmRegD mk => exact answers_bind fun _ => answers_bind fun _ => answers_ok (h _ _ _ _)
  | rmReg mk => exact answers_bind fun _ => answers_bind fun _ => answers_ok (h _ _ _)
  | regMem mk => exact answers_ite answers_error (answers_bind fun _ => answers_bind fun _ => answers_ok (h _ _))
  | rmSreg mk => exact answers_ite answers_error (answers_bind fun _ => answers_bind fun _ => answers_ok (h _ _))
  | rm mk => exact answers_bind fun _ => answers_bind fun _ => answers_ok (h _ _)
  | rm16 mk => exact answers_bind fun _ => answers_bind fun _ => answers_ok (h _)
  | mem16 mk => exact answers_ite answers_error (answers_bind fun _ => answers_bind fun _ => answers_ok (h _))
  | shift mk => exact answers_bind fun _ => answers_bind fun _ => answers_ok (h _ _ _)

theorem groupRoutine_answers {row : GroupRow} (h : row.All P) (m : ModRM) (b : Byte) (sg : Option SegLatch)
    (c : Cursor) : Answers P (groupRoutine row m b sg c) := by
  rcases row with f | ⟨mk⟩ | ⟨mk⟩
  · exact regMemRoutine_answers h m b sg c
  all_goals exact answers_bind fun _ => answers_bind fun _ => answers_bind fun _ => answers_ok (h _ _)

/-- What a target's routine answers is one of the instructions the target makes. -/
theorem routine_answers {t : Target} {x : Located} {sg : Option SegLatch} {st p : Nat} {r : List Byte}
    (h : t.All P (ModRM.of (r.headD 0) 0).reg) : Answers P (routine t x sg ⟨st, p, r⟩) := by
  cases t with
  | refuse => exact answers_error
  | prefixByte sh => exact answers_error
  | group g =>
    intro i c hr
    obtain ⟨⟨M, c1⟩, hread, hr⟩ := bind_eq_ok hr
    obtain ⟨m, ⟨(rfl : r = m :: c1.rest), -, -⟩, rfl⟩ := readModRM_reads hread
    simp only at hr
    split at hr
    · cases hr
    · next row hrow => exact groupRoutine_answers (h row hrow) _ _ _ _ i c hr
  | regMemToFromReg f => exact answers_bind fun _ => regMemRoutine_answers h _ _ _ _
  | immediateToAccumulator f =>
    cases f with
    | accImm mk => exact answers_bind fun _ => answers_bind fun _ => answers_ok (h _)
    | accMem mk => exact answers_bind fun _ => answers_bind fun _ => answers_ok (h _ _)
    | port8 mk => exact answers_bind fun _ => answers_bind fun _ => answers_ok (h _ _)
  | immediateToRegister mk =>
    refine answers_bind fun _ => ?_
    split <;> exact answers_bind fun _ => answers_ok (h _)
  | shortJump mk => exact answers_bind fun _ => answers_bind fun _ => answers_ok (h _)
  | nearProcLabel mk => exact answers_bind fun _ => answers_bind fun _ => answers_ok (h _)
  | farProcLabel mk => exact answers_bind fun _ => answers_bind fun _ => answers_bind fun _ => answers_ok (h _ _)
  | registerOnly mk => exact answers_bind fun _ => answers_ok (h _)
  | segmentRegisterOnly mk => exact answers_bind fun _ => answers_ok (h _)
  | noOperand f =>
    cases f with
    | portDx mk => exact answers_bind fun _ => answers_ok (h _)
    | str mk => exact answers_bind fun _ => answers_ok (h _)
    | bare i => exact answers_bind fun _ => answers_ok h
  | other f =>
    cases f with
    | imm8 mk => exact answers_bind fun _ => answers_bind fun _ => answers_ok (h _)
    | imm16 mk => exact answers_bind fun _ => answers_bind fun _ => answers_ok (h _)
    | aa i => exact answers_bind fun _ => answers_bind fun _ => answers_ite (answers_ok h) answers_error
end

end Sys2Proof
end

section
/-! The dispatch table (R78): its order, its shape column, and the shapes of the rows it selects (R19): O15. -/

namespace Sys2Proof

open Machine

/-! ## The order of the entries -/

/-- Entry `e` may stand before `f`: the mask of `f` has no more bits, and with as many bits `f` has the higher match value
and no byte matches both. -/
def Entry.Precedes (e f : Entry) : Prop :=
  maskBits f ≤ maskBits e ∧
    (maskBits e = maskBits f → e.pat.toNat < f.pat.toNat ∧ e.pat &&& f.mask ≠ f.pat &&& e.mask)

theorem Entry.precedes_of_fewer_bits {e f : Entry} (h : maskBits f < maskBits e) : e.Precedes f :=
  ⟨h.le, fun heq => absurd heq h.ne'⟩

/-- Under one mask two different match values share no byte. -/
theorem Entry.precedes_of_same_mask {e f : Entry} (hm : e.mask = f.mask) (he : e.pat &&& e.mask = e.pat)
    (hf : f.pat &&& f.mask = f.pat) (h : e.pat.toNat < f.pat.toNat) : e.Precedes f := by
  refine ⟨by simp [maskBits, hm], fun _ => ⟨h, ?_⟩⟩
  rw [← hm, he, hm, hf]
  intro heq
  simp [heq] at h

/-- `l` holds entries with `n` mask bits that cover their match values, in the table's order. -/
structure Block (n : Nat) (l : List Entry) : Prop where
  bits : ∀ e ∈ l, maskBits e = n
  covers : ∀ e ∈ l, e.pat &&& e.mask = e.pat
  ordered : l.Pairwise Entry.Precedes

/-- A block with one mask is in order if the match values rise from each entry to the next. -/
theorem Block.of_mask {n : Nat} {l : List Entry} (m : Byte) (hm : ∀ e ∈ l, e.mask = m)
    (hbits : ∀ e ∈ l, maskBits e = n) (hcov : ∀ e ∈ l, e.pat &&& e.mask = e.pat)
    (hrise : (l.map (·.pat.toNat)).IsChain (· < ·)) : Block n l where
  bits := hbits
  covers := hcov
  ordered := (List.pairwise_map.1 (List.isChain_iff_pairwise.1 hrise)).imp_of_mem fun he hf h =>
    Entry.precedes_of_same_mask ((hm _ he).trans (hm _ hf).symm) (hcov _ he) (hcov _ hf) h

theorem block_entries8 : Block 8 (entries8a ++ entries8b) :=
  .of_mask 0xFF (by decide) (by decide) (by decide) (by simp [entries8a, entries8b])

theorem block_entries7 : Block 7 entries7 := .of_mask 0xFE (by decide) (by decide) (by decide) (by decide)

/-- The one block with two masks, 0xFC and 0xE7: its pairs are compared directly. -/
theorem block_entries6 : Block 6 entries6 := ⟨by decide, by decide, by unfold Entry.Precedes; decide⟩

theorem block_entries5 : Block 5 entries5 := .of_mask 0xF8 (by decide) (by decide) (by decide) (by decide)

theorem block_entries4 : Block 4 entries4 := .of_mask 0xF0 (by decide) (by decide) (by decide) (by decide)

/-- The table's blocks, each behind the number of its mask bits. -/
def tableBlocks : List (Nat × List Entry) :=
  [(8, entries8a ++ entries8b), (7, entries7), (6, entries6), (5, entries5), (4, entries4)]

theorem dispatchTable_eq_flatten : dispatchTable = (tableBlocks.map Prod.snd).flatten := rfl

theorem block_of_mem {p : Nat × List Entry} (hp : p ∈ tableBlocks) : Block p.1 p.2 := by
  simp only [tableBlocks, List.mem_cons, List.not_mem_nil, or_false] at hp
  rcases hp with rfl | rfl | rfl | rfl | rfl
  exacts [block_entries8, block_entries7, block_entries6, block_entries5, block_entries4]

/-- The mask bits fall from a block to the next. -/
theorem tableBlocks_pairwise : tableBlocks.Pairwise (fun p q => q.1 < p.1) := by decide

theorem dispatchTable_pairwise : dispatchTable.Pairwise Entry.Precedes := by
  rw [dispatchTable_eq_flatten, List.pairwise_flatten, List.pairwise_map]
  refine ⟨?_, tableBlocks_pairwise.imp_of_mem fun hp hq hlt e he f hf => ?_⟩
  · intro l hl
    obtain ⟨p, hp, rfl⟩ := List.mem_map.1 hl
    exact (block_of_mem hp).ordered
  · exact Entry.precedes_of_fewer_bits (by rwa [(block_of_mem hp).bits e he, (block_of_mem hq).bits f hf])

theorem dispatchTable_mask {e : Entry} (he : e ∈ dispatchTable) :
    e.pat &&& e.mask = e.pat ∧ maskBits e ∈ [8, 7, 6, 5, 4] := by
  rw [dispatchTable_eq_flatten] at he
  obtain ⟨l, hl, he⟩ := List.mem_flatten.1 he
  obtain ⟨p, hp, rfl⟩ := List.mem_map.1 hl
  have hblock := block_of_mem hp
  refine ⟨hblock.covers e he, ?_⟩
  rw [hblock.bits e he]
  exact List.mem_map_of_mem (f := Prod.fst) hp

/-! ## The shape column -/

/-- The shapes a target selects at the eight values of the reg field. -/
def Target.shapes (t : Target) : List Shape := (List.finRange 8).filterMap fun k => t.shapeAt (.ofFin k)

theorem Target.mem_shapes (t : Target) (sh : Shape) : sh ∈ t.shapes ↔ ∃ k, t.shapeAt k = some sh := by
  simp only [Target.shapes, List.mem_filterMap, List.mem_finRange, true_and]
  exact ⟨fun ⟨k, hk⟩ => ⟨.ofFin k, hk⟩, fun ⟨k, hk⟩ => ⟨k.toFin, hk⟩⟩

theorem shapes_subset_shapeColumn : ∀ p ∈ dispatchTable.zip shapeColumn,
    p.1.target.shapes ⊆ p.2 ∧ p.2 ⊆ p.1.target.shapes := by
  decide

theorem exists_shapeAt_iff_mem_shapeColumn {p : Entry × List Shape} (hp : p ∈ dispatchTable.zip shapeColumn)
    (sh : Shape) : (∃ k, p.1.target.shapeAt k = some sh) ↔ sh ∈ p.2 := by
  obtain ⟨hsub, hsup⟩ := shapes_subset_shapeColumn p hp
  rw [← Target.mem_shapes]
  exact ⟨fun h => hsub h, fun h => hsup h⟩

/-! ## The shapes of the rows (R19) -/

/-- Every instruction the target makes has the shape the target selects. -/
def Target.KeepsShape (t : Target) : Prop := ∀ k, t.All (fun i => t.shapeAt k = some i.shape) k

theorem groupTable_shape (g : Group) (k : BitVec 3) (row : GroupRow) (h : groupTable g k = some row) :
    row.All (·.shape = row.shape) := by
  cases g <;> (rcases regField_cases k with rfl | rfl | rfl | rfl | rfl | rfl | rfl | rfl) <;> cases h <;>
    simp only [GroupRow.All, RegMemForm.All] <;> intros <;> rfl

theorem Target.keepsShape_group (g : Group) : (Target.group g).KeepsShape := by
  intro k row hrow
  simp only [Target.shapeAt, hrow, Option.map_some, Option.some.injEq, @eq_comm _ row.shape]
  exact groupTable_shape g k row hrow

/-- Entry by entry: a group's rows are `groupTable_shape`'s, and of every other entry the constructor has the one shape. -/
theorem dispatchTable_keepsShape : dispatchTable.Forall (·.target.KeepsShape) := by
  simp only [dispatchTable, entries8a, entries8b, entries7, entries6, entries5, entries4, List.cons_append,
    List.nil_append, List.Forall, Target.keepsShape_group, true_and]
  and_intros <;> intro k <;> simp only [Target.All, RegMemForm.All] <;> intros <;> rfl

/-- What `Dispatch` answers is the target of an entry (R118). -/
theorem exists_entry_of_dispatch {b : Byte} {t : Target} (h : dispatch b = some t) :
    ∃ e ∈ dispatchTable, e.target = t := by
  unfold dispatch at h
  split at h
  · cases h
  · next e he =>
    refine ⟨e, List.mem_of_find?_eq_some he, ?_⟩
    split at h
    · cases h
    · cases h; rfl

theorem keepsShape_of_dispatch {b : Byte} {t : Target} (h : dispatch b = some t) : t.KeepsShape := by
  obtain ⟨e, he, rfl⟩ := exists_entry_of_dispatch h
  exact List.forall_iff_forall_mem.1 dispatchTable_keepsShape e he

/-- The routine that the first byte of `i` selects reads `i` back, and it answers rows of the selected shape alone. -/
theorem dispatch_shape_of_plain {i : Instr} {b : Byte} {r : List Byte} (hwf : WellFormed i) (hp : i.isPrefixed = false)
    (he : encode i = b :: r) :
    ∃ t, dispatch b = some t ∧ t.shapeAt (ModRM.of (r.headD 0) 0).reg = some i.shape := by
  obtain ⟨b', r', t, he', -, hd, -, hread⟩ := readsBack_of_plain i hwf hp
  obtain ⟨rfl, rfl⟩ := List.cons.inj (he.symm.trans he')
  have hr := hread none 0 0 0 [] (by simp)
  rw [List.append_nil] at hr
  have hall := keepsShape_of_dispatch hd (ModRM.of (r.headD 0) 0).reg
  exact ⟨t, hd, routine_answers hall _ _ hr⟩

/-- The entry of a prefix byte has the shape of the prefix row. -/
theorem firstEntry_shape_of_prefixed {i : Instr} {b : Byte} {r : List Byte} (hp : i.isPrefixed = true)
    (he : encode i = b :: r) : ∃ e, firstEntry b = some e ∧ ∀ k, e.target.shapeAt k = some i.shape := by
  cases i with
  | lock body | rep body | repne body => cases he; exact ⟨_, rfl, fun _ => rfl⟩
  | seg sr body => cases he; cases sr <;> exact ⟨_, rfl, fun _ => rfl⟩
  | _ => cases hp

/-- Settles O15: the order block by block, the shape column by the finitely many shapes of each target, the one shape of each
row by what its routine can answer. -/
theorem dispatchTableOrdered : Obligations.DispatchTableOrdered :=
  ⟨by decide, fun _ => dispatchTable_mask, dispatchTable_pairwise, by decide,
   fun _ => exists_shapeAt_iff_mem_shapeColumn, by decide, fun _ _ _ => dispatch_shape_of_plain,
   fun _ _ _ => firstEntry_shape_of_prefixed⟩

end Sys2Proof
end

section
/-! The prefix grammar `[LOCK] ( [SEG] Body | REPP StringOp )` (R83), and decoding in both directions: what `decodeOne` answers is
a well-formed instruction that stands in the buffer, and a well-formed instruction that stands there is answered (R169): O13. -/

namespace Sys2Proof

open Machine

/-! ## The grammar of the prefixes (R83) -/

/-- A string instruction behind a repeat prefix (R116). -/
def RepKind.wrap : RepKind → Instr → Instr
  | .rep   => .rep
  | .repne => .repne

/-- The byte of a repeat prefix (R116). -/
def RepKind.byte : RepKind → Byte
  | .rep   => 0xF3
  | .repne => 0xF2

theorem RepKind.encode_wrap (k : RepKind) (i : Instr) : (k.wrap i).encode = k.byte :: i.encode := by cases k <;> rfl

theorem RepKind.wf_wrap (k : RepKind) (i : Instr) : (k.wrap i).wf = (i.wf && i.isStringOp) := by cases k <;> rfl

theorem RepKind.length_wrap (k : RepKind) (i : Instr) : (k.wrap i).length = 1 + i.length := by cases k <;> rfl

theorem RepKind.isLock_wrap (k : RepKind) (i : Instr) : (k.wrap i).isLock = false := by cases k <;> rfl

theorem BodyPrefix.encode_wrap (p : BodyPrefix) (i : Instr) : (p.wrap i).encode = p.bytes ++ i.encode := by
  rcases p with ⟨_ | _, _ | sr⟩ <;> [skip; cases sr; skip; cases sr] <;> rfl

/-- LOCK may stand before any instruction that has none (R83). -/
theorem wf_wrap_lock (lock : Bool) {i : Instr} (h : WellFormed i) (hl : i.isLock = false) :
    WellFormed ((BodyPrefix.mk lock none).wrap i) := by
  cases lock with
  | false => exact h
  | true => simp [WellFormed, BodyPrefix.wrap, h, hl]

theorem BodyPrefix.wrap_seg (lock : Bool) (sr : Sreg) (i : Instr) :
    (BodyPrefix.mk lock (some sr)).wrap i = (BodyPrefix.mk lock none).wrap (.seg sr i) := by cases lock <;> rfl

/-- `[LOCK] [SEG] Body` is an instruction where SEG comes before a memory operand (R83). -/
theorem BodyPrefix.wf_wrap (p : BodyPrefix) {i : Instr} (h : WellFormed i) (hp : i.isPrefixed = false)
    (hm : p.seg.isSome = true → i.hasMem = true) : WellFormed (p.wrap i) := by
  obtain ⟨lock, _ | sr⟩ := p
  · exact wf_wrap_lock lock h (i.isLock_of_plain hp)
  · rw [BodyPrefix.wrap_seg]
    exact wf_wrap_lock lock (by simp [WellFormed, h, hp, hm rfl]) rfl

/-- `[LOCK] REPP StringOp` is an instruction (R83). -/
theorem wf_wrap_rep (lock : Bool) (k : RepKind) {i : Instr} (h : WellFormed i) (hs : i.isStringOp = true) :
    WellFormed ((BodyPrefix.mk lock none).wrap (k.wrap i)) :=
  wf_wrap_lock lock (by rw [WellFormed, RepKind.wf_wrap, h, hs]; rfl) (k.isLock_wrap i)

/-- What the grammar of R83 derives. -/
inductive Derived : Instr → Prop
  | body (p : BodyPrefix) (i : Instr) (hwf : WellFormed i) (hplain : i.isPrefixed = false)
      (hmem : p.seg.isSome = true → i.hasMem = true) : Derived (p.wrap i)
  | rep (lock : Bool) (k : RepKind) (i : Instr) (hwf : WellFormed i) (hstring : i.isStringOp = true) :
      Derived ((BodyPrefix.mk lock none).wrap (k.wrap i))

/-- A well-formed instruction without LOCK is derived, and so it is with LOCK. -/
theorem derived_lock_of_wf (lock : Bool) {i : Instr} (h : WellFormed i) (hl : i.isLock = false) :
    Derived ((BodyPrefix.mk lock none).wrap i) := by
  cases i with
  | lock body => cases hl
  | seg sr body =>
    simp only [WellFormed, Instr.wf_seg, Bool.and_eq_true, Bool.not_eq_true'] at h
    obtain ⟨⟨hwf, hp⟩, hm⟩ := h
    rw [← BodyPrefix.wrap_seg]
    exact .body ⟨lock, some sr⟩ body hwf hp fun _ => hm
  | rep body =>
    simp only [WellFormed, Instr.wf_rep, Bool.and_eq_true] at h
    exact .rep lock .rep body h.1 h.2
  | repne body =>
    simp only [WellFormed, Instr.wf_repne, Bool.and_eq_true] at h
    exact .rep lock .repne body h.1 h.2
  | _ => exact .body ⟨lock, none⟩ _ h rfl nofun

/-- The well-formed instructions are those the grammar derives (R83). -/
theorem wf_iff_derived (i : Instr) : WellFormed i ↔ Derived i := by
  constructor
  · intro h
    cases hl : i.isLock with
    | false => exact derived_lock_of_wf false h hl
    | true =>
      cases i with
      | lock body =>
        simp only [WellFormed, Instr.wf_lock, Bool.and_eq_true, Bool.not_eq_true'] at h
        exact derived_lock_of_wf true h.1 h.2
      | _ => cases hl
  · rintro (⟨p, i, hwf, hplain, hmem⟩ | ⟨lock, k, i, hwf, hstring⟩)
    · exact p.wf_wrap hwf hplain hmem
    · exact wf_wrap_rep lock k hwf hstring

/-! ## The prefix phase (R113) -/

/-- The LOCK and segment latches as a `BodyPrefix`. -/
def Prefixes.body (p : Prefixes) : BodyPrefix := ⟨p.lock, p.seg.map (·.reg)⟩

theorem Prefixes.wrap_of_no_rep {p : Prefixes} (h : p.rep = none) (i : Instr) : p.wrap i = p.body.wrap i := by
  obtain ⟨_ | _, _ | l, rp⟩ := p <;> cases h <;> rfl

theorem Prefixes.wrap_of_rep {p : Prefixes} {k : RepKind} (h : p.rep = some k) (hs : p.seg = none) (i : Instr) :
    p.wrap i = (BodyPrefix.mk p.lock none).wrap (k.wrap i) := by
  obtain ⟨_ | _, sg, rp⟩ := p <;> cases h <;> cases hs <;> cases k <;> rfl

theorem BodyPrefix.bytes_seg (lock : Bool) (sr : Sreg) :
    (BodyPrefix.mk lock (some sr)).bytes = (BodyPrefix.mk lock none).bytes ++ [(0b001#3 ++ sr.bits ++ 0b110#3 : Byte)] := by
  cases lock <;> cases sr <;> rfl

theorem isPrefixByte_eq_false {b : Byte} (h0 : b ≠ 0xF0#8) (hr : isRepByte b = false) (hs : isSegByte b = false) :
    isPrefixByte b = false := by
  simp [isPrefixByte, h0, hr, hs]

/-- What the prefix phase reads: the prefixes of `[LOCK] [SEG]` or `[LOCK] REPP`, and the opcode byte behind them. -/
theorem prefixPhase_reads {c c' : Cursor} {p : Prefixes} {x : Located} (h : prefixPhase c = .ok ((p, x), c')) :
    (p.rep = none ∧ isPrefixByte x.byte = false ∧ Cursor.Reads c (p.body.bytes ++ [x.byte]) c') ∨
    (∃ k, p.rep = some k ∧ p.seg = none ∧ isStringByte x.byte = true ∧
      Cursor.Reads c ((BodyPrefix.mk p.lock none).bytes ++ [k.byte] ++ [x.byte]) c') := by
  obtain ⟨⟨⟨l, x₁⟩, c₁⟩, hlock, h⟩ := bind_eq_ok h
  obtain ⟨⟨⟨sg, x₂⟩, c₂⟩, hseg, h⟩ := bind_eq_ok h
  obtain ⟨⟨⟨rp, x₃⟩, c₃⟩, hrep, h⟩ := bind_eq_ok h
  cases h
  obtain ⟨hread₁, hne⟩ := lockPhase_reads hlock
  have hbytes : (BodyPrefix.mk l none).bytes = if l then [0xF0#8] else [] := by cases l <;> rfl
  rw [← hbytes] at hread₁
  obtain ⟨rfl, rfl, rfl, hnseg⟩ | ⟨latch, rfl, hsegb, hread₂, hnp⟩ := segPhase_reads hseg
  · obtain ⟨rfl, rfl, rfl, hnrep⟩ | ⟨k, rfl, hk, hread₃, hstr, -⟩ := repPhase_reads hrep
    · exact .inl ⟨rfl, isPrefixByte_eq_false hne hnrep hnseg, hread₁⟩
    · have hkb : x₂.byte = k.byte := by rw [hk]; cases k <;> rfl
      rw [hkb] at hread₁
      exact .inr ⟨k, rfl, rfl, hstr, hread₁.trans hread₃⟩
  · obtain ⟨rfl, rfl, rfl, -⟩ | ⟨k, rfl, hk, -⟩ := repPhase_reads hrep
    · refine .inl ⟨rfl, hnp, ?_⟩
      simp only [Prefixes.body, Option.map_some, BodyPrefix.bytes_seg, ← hsegb]
      exact hread₁.trans hread₂
    · rw [hk] at hnp
      cases k <;> cases hnp

/-- The prefix phase on `[LOCK] REPP` and a string opcode (R113, R116). -/
theorem prefixPhase_rep (lock : Bool) (k : RepKind) (b : Byte) (hb : isStringByte b = true) (st : Nat) (r : List Byte) :
    prefixPhase ⟨st, st, (BodyPrefix.mk lock none).bytes ++ k.byte :: b :: r⟩ =
      .ok ((⟨lock, none, some k⟩, ⟨b, st + (BodyPrefix.mk lock none).count + 1⟩),
        ⟨st, st + (BodyPrefix.mk lock none).count + 2, r⟩) := by
  cases lock <;> cases k <;>
    simp [prefixPhase, lockPhase, segPhase, repPhase, BodyPrefix.bytes, BodyPrefix.count, Cursor.readLocated, RepKind.byte,
      isSegByte, isRepByte, fieldZ, hb, bind, Except.bind, pure, Except.pure]

/-! ## Decoding from a cursor (R112) -/

/-- What decoding from a cursor answers is well formed, and exactly its bytes are read (R169). -/
theorem decodeFrom_reads {c c' : Cursor} {i : Instr} (h : decodeFrom c = .ok (i, c')) :
    WellFormed i ∧ Cursor.Reads c (encode i) c' := by
  obtain ⟨⟨⟨p, x⟩, c₁⟩, hprefix, h⟩ := bind_eq_ok h
  simp only at h
  split at h
  · cases h
  next t hdispatch =>
  obtain ⟨⟨j, c₂⟩, hroutine, h⟩ := bind_eq_ok h
  cases h
  obtain ⟨hwf, hplain, hmem, l, hencode, hread, -⟩ := routine_reads (dispatch_made _ _ hdispatch) hroutine
  obtain ⟨hrep, -, hpre⟩ | ⟨k, hrep, hseg, hstring, hpre⟩ := prefixPhase_reads hprefix
  · rw [Prefixes.wrap_of_no_rep hrep]
    refine ⟨p.body.wf_wrap hwf hplain fun hs => hmem (by simpa [Prefixes.body] using hs), ?_⟩
    rw [encode, BodyPrefix.encode_wrap, hencode]
    simpa using hpre.trans hread
  · rw [Prefixes.wrap_of_rep hrep hseg]
    refine ⟨wf_wrap_rep p.lock k hwf (routine_string hstring hdispatch hroutine), ?_⟩
    rw [encode, BodyPrefix.encode_wrap, RepKind.encode_wrap, hencode]
    simpa using hpre.trans hread

/-- The parts of `DecodeOne` in sequence (R112). -/
theorem decodeFrom_of_parts {c c₁ c₂ : Cursor} {p : Prefixes} {x : Located} {t : Target} {i : Instr}
    (hprefix : prefixPhase c = .ok ((p, x), c₁)) (hdispatch : dispatch x.byte = some t)
    (hroutine : routine t x p.seg c₁ = .ok (i, c₂)) : decodeFrom c = .ok (p.wrap i, c₂) := by
  simp [decodeFrom, hprefix, hdispatch, hroutine, bind, Except.bind, pure, Except.pure]

/-- A well-formed instruction whose bytes stand at the cursor is decoded, and the cursor left behind it (R112, R169). -/
theorem decodeFrom_encode {i : Instr} (h : WellFormed i) (st : Nat) (tail : List Byte) :
    decodeFrom ⟨st, st, encode i ++ tail⟩ = .ok (i, ⟨st, st + i.length, tail⟩) := by
  obtain ⟨p, j, hwf, hplain, hmem⟩ | ⟨lock, k, j, hwf, hstring⟩ := (wf_iff_derived i).1 h
  · obtain ⟨b, r, t, hencode, hnp, hdispatch, -, hread⟩ := readsBack_of_plain j hwf hplain
    have hlatch : (p.latch st).isSome = true → j.hasMem = true := fun hs => hmem (by simpa [BodyPrefix.latch] using hs)
    have hwrap : Prefixes.wrap ⟨p.lock, p.latch st, none⟩ j = p.wrap j := by
      rw [Prefixes.wrap_of_no_rep rfl]; obtain ⟨l, _ | sr⟩ := p <;> rfl
    have hpos : st + p.count + 1 + (j.length - 1) = st + (p.count + j.length) := by have := length_pos j; omega
    rw [encode, BodyPrefix.encode_wrap, hencode, List.append_assoc, List.cons_append, BodyPrefix.length_wrap, ← hpos, ← hwrap]
    exact decodeFrom_of_parts (prefixPhase_body p b hnp st (r ++ tail)) hdispatch (hread _ _ _ _ _ hlatch)
  · obtain ⟨b, r, t, hencode, -, hdispatch, hs, hread⟩ := readsBack_of_plain j hwf (j.isPrefixed_of_string hstring)
    have hpos : st + (BodyPrefix.mk lock none).count + 2 + (j.length - 1) =
        st + ((BodyPrefix.mk lock none).count + (1 + j.length)) := by have := length_pos j; omega
    rw [encode, BodyPrefix.encode_wrap, RepKind.encode_wrap, hencode, List.append_assoc, List.cons_append, List.cons_append,
      BodyPrefix.length_wrap, RepKind.length_wrap, ← hpos, ← Prefixes.wrap_of_rep (p := ⟨lock, none, some k⟩) rfl rfl]
    exact decodeFrom_of_parts (prefixPhase_rep lock k b (hs.trans hstring) st (r ++ tail)) hdispatch
      (hread _ _ _ _ _ (by simp))

/-! ## Decoding at an offset of the buffer -/

/-- A well-formed instruction that stands in the buffer is answered (R112). -/
theorem decodeOne_of_drop {i : Instr} {buf tail : List Byte} {start : Nat} (h : WellFormed i)
    (hbuf : buf.drop start = encode i ++ tail) : decodeOne buf start = .ok (i, start + i.length) := by
  rw [decodeOne, Cursor.at, hbuf, decodeFrom_encode h]
  rfl

/-- What is answered is well formed and stands in the buffer (R169). -/
theorem decodeOne_ok {i : Instr} {buf : List Byte} {start next : Nat} (h : decodeOne buf start = .ok (i, next)) :
    WellFormed i ∧ next = start + i.length ∧ next ≤ buf.length ∧ buf.drop start = encode i ++ buf.drop next := by
  obtain ⟨⟨j, c⟩, hdecode, h⟩ := bind_eq_ok h
  cases h
  obtain ⟨hwf, hrest, hpos, -⟩ := decodeFrom_reads hdecode
  change buf.drop start = encode i ++ c.rest at hrest
  change c.pos = start + (encode i).length at hpos
  have htail : buf.drop c.pos = c.rest := by rw [hpos, ← List.drop_drop, hrest, List.drop_left]
  have hlen := congrArg List.length hrest
  have hlenpos := length_pos i
  rw [List.length_drop, List.length_append, length_encode] at hlen
  rw [length_encode] at hpos
  exact ⟨hwf, hpos, by omega, by rw [htail, hrest]⟩

/-- Settles O13: the prefix phase reads the prefixes of the grammar, and the routine reads the rest of the encoding. -/
theorem decodeIsSound : Obligations.DecodeIsSound := by
  intro buf start i next h
  obtain ⟨hwf, hnext, hle, hdrop⟩ := decodeOne_ok h
  have hlen := length_pos i
  exact ⟨hwf, by rw [length_encode, hnext], by omega, hle, hdrop⟩

end Sys2Proof
end

section
/-! Where a decode error points (R26, R382 to R385): every reader, check and routine of the decoder raises records that are
filled as their kind says and point into the buffer. -/

namespace Sys2Proof

open Machine

section
variable {buf : List Byte} {st : Nat}

/-- Byte `b` stands in the buffer at `off`, not before `st`. -/
def HeldAt (buf : List Byte) (st off : Nat) (b : Byte) : Prop := st ≤ off ∧ buf[off]? = some b

/-- The read position of the instruction at `st` is inside the buffer or at its end (R48). -/
structure Cursor.Within (buf : List Byte) (st : Nat) (c : Cursor) : Prop where
  start_eq : c.start = st
  st_le : st ≤ c.pos
  pos_le : c.pos ≤ buf.length
  rest_eq : c.rest = buf.drop c.pos

/-- What a record of the instruction at `st` says is so (R382 to R385): the general form of `errorFieldsOk` and
`errorPlaceOk`, for a buffer and an offset. -/
structure PlacedError (buf : List Byte) (st : Nat) (e : ErrorRecord) : Prop where
  start_eq : e.instrStart = st
  st_le : st ≤ e.offset
  fields : errorFieldsOk e = true
  byte_held : ∀ b, e.byte = some b → buf[e.offset]? = some b
  missing_end : ∀ n, e.missing = some n →
    (e.offset = buf.length ∧ (n = 1 ∨ n = 2)) ∨ (e.offset + 1 = buf.length ∧ n = 1)

theorem placedError_invalidField {c : Cursor} {off : Nat} {b : Byte} (hc : c.Within buf st) (h : HeldAt buf st off b)
    (f : FieldName) : PlacedError buf st (invalidField c.start off b f) :=
  ⟨hc.start_eq, h.1, rfl, fun _ hb => hb ▸ h.2, nofun⟩

theorem placedError_unknownOpcode {c : Cursor} {off : Nat} {b : Byte} (hc : c.Within buf st) (h : HeldAt buf st off b) :
    PlacedError buf st (unknownOpcode c.start off b) :=
  ⟨hc.start_eq, h.1, rfl, fun _ hb => hb ▸ h.2, nofun⟩

/-- A value answered has `Q`, and an error raised is a placed one. -/
def Yields {α : Type} (buf : List Byte) (st : Nat) (Q : α → Prop) (r : Except ErrorRecord α) : Prop :=
  (∀ a, r = .ok a → Q a) ∧ (∀ e, r = .error e → PlacedError buf st e)

theorem yields_ok {α : Type} {Q : α → Prop} {a : α} (h : Q a) : Yields buf st Q (.ok a) :=
  ⟨by rintro _ ⟨⟩; exact h, nofun⟩

theorem yields_error {α : Type} {Q : α → Prop} {e : ErrorRecord} (h : PlacedError buf st e) :
    Yields buf st Q (.error e) :=
  ⟨nofun, by rintro _ ⟨⟩; exact h⟩

theorem Yields.bind {α β : Type} {Q : α → Prop} {R : β → Prop} {r : Except ErrorRecord α} {f : α → Except ErrorRecord β}
    (hr : Yields buf st Q r) (hf : ∀ a, Q a → Yields buf st R (f a)) : Yields buf st R (r >>= f) := by
  cases r with
  | ok a => exact hf a (hr.1 a rfl)
  | error e => exact yields_error (hr.2 e rfl)

theorem yields_ite {α : Type} {Q : α → Prop} {p : Prop} [Decidable p] {r r' : Except ErrorRecord α}
    (h : Yields buf st Q r) (h' : Yields buf st Q r') : Yields buf st Q (if p then r else r') := by
  split
  · exact h
  · exact h'

/-! ## The cursor -/

theorem Cursor.within_at (h : st ≤ buf.length) : (Cursor.at buf st).Within buf st := ⟨rfl, le_rfl, h, rfl⟩

/-- Reading bytes of the buffer keeps the cursor within it. -/
theorem Cursor.Within.reads {c c' : Cursor} {l : List Byte} (hc : c.Within buf st) (h : Cursor.Reads c l c') :
    c'.Within buf st := by
  obtain ⟨hrest, hpos, hstart⟩ := h
  have hdrop : buf.drop c.pos = l ++ c'.rest := hc.rest_eq.symm.trans hrest
  have hlen := congrArg List.length hdrop
  rw [List.length_drop, List.length_append] at hlen
  refine ⟨hstart.trans hc.start_eq, by have := hc.st_le; omega, by have := hc.pos_le; omega, ?_⟩
  rw [hpos, ← List.drop_drop, hdrop, List.drop_left]

/-- The byte at the read position. -/
theorem Cursor.Within.held {c c' : Cursor} {b : Byte} (hc : c.Within buf st) (h : Cursor.Reads c [b] c') :
    HeldAt buf st c.pos b := by
  refine ⟨hc.st_le, ?_⟩
  rw [← List.head?_drop, ← hc.rest_eq, h.1]
  rfl

/-- A read that lacks `n` bytes begins at the end of the buffer, or one byte before it (R382). -/
theorem Cursor.Within.placedError {c : Cursor} {n : Nat} (hc : c.Within buf st)
    (h : (c.rest.length = 0 ∧ (n = 1 ∨ n = 2)) ∨ (c.rest.length = 1 ∧ n = 1)) :
    PlacedError buf st (endOfStream c.start c.pos n) := by
  have hlen : c.rest.length = buf.length - c.pos := by rw [hc.rest_eq, List.length_drop]
  have hle := hc.pos_le
  refine ⟨hc.start_eq, hc.st_le, ?_, nofun, ?_⟩
  · obtain ⟨-, rfl | rfl⟩ | ⟨-, rfl⟩ := h <;> rfl
  · rintro _ ⟨⟩
    change (c.pos = buf.length ∧ (n = 1 ∨ n = 2)) ∨ (c.pos + 1 = buf.length ∧ n = 1)
    omega

theorem readByte_yields {c : Cursor} (hc : c.Within buf st) :
    Yields buf st (fun p => HeldAt buf st c.pos p.1 ∧ p.2.Within buf st) c.readByte := by
  constructor
  · rintro ⟨b, c'⟩ h
    exact ⟨hc.held (readByte_reads h), hc.reads (readByte_reads h)⟩
  · intro e h
    obtain ⟨hnil, rfl⟩ := readByte_error h
    exact hc.placedError (.inl ⟨by rw [hnil]; rfl, .inl rfl⟩)

theorem readWord_yields {c : Cursor} (hc : c.Within buf st) :
    Yields buf st (fun p => p.2.Within buf st) c.readWord := by
  constructor
  · rintro ⟨v, c'⟩ h
    exact hc.reads (readWord_reads h)
  · intro e h
    obtain ⟨hshort, rfl⟩ := readWord_error h
    exact hc.placedError (by omega)

theorem readLocated_yields {c : Cursor} (hc : c.Within buf st) :
    Yields buf st (fun p => HeldAt buf st p.1.off p.1.byte ∧ p.2.Within buf st) c.readLocated :=
  (readByte_yields hc).bind fun _ h => yields_ok h

theorem readModRM_yields {c : Cursor} (hc : c.Within buf st) :
    Yields buf st (fun p => HeldAt buf st p.1.off p.1.byte ∧ p.2.Within buf st) c.readModRM :=
  (readByte_yields hc).bind fun _ h => yields_ok h

/-! ## The prefix phase (R113) -/

/-- The recorded place of a segment prefix holds its byte (R28). -/
def LatchHeld (buf : List Byte) (st : Nat) (sg : Option SegLatch) : Prop := ∀ l ∈ sg, HeldAt buf st l.off l.byte

/-- What each part of the prefix phase hands on: the byte it looked at last, and the cursor behind it. -/
def Looked (buf : List Byte) (st : Nat) (x : Located) (c : Cursor) : Prop := HeldAt buf st x.off x.byte ∧ c.Within buf st

theorem lockPhase_yields {c : Cursor} (hc : c.Within buf st) :
    Yields buf st (fun p => Looked buf st p.1.2 p.2) (lockPhase c) :=
  (readLocated_yields hc).bind fun _ hx => yields_ite
    ((readLocated_yields hx.2).bind fun _ hy => yields_ite
      (yields_error (placedError_invalidField hy.2 hy.1 _)) (yields_ok hy))
    (yields_ok hx)

theorem segPhase_yields {x : Located} {c : Cursor} (hx : Looked buf st x c) :
    Yields buf st (fun p => LatchHeld buf st p.1.1 ∧ Looked buf st p.1.2 p.2) (segPhase x c) :=
  yields_ite
    ((readLocated_yields hx.2).bind fun _ hy => yields_ite
      (yields_error (placedError_invalidField hy.2 hy.1 _)) (yields_ok ⟨by rintro l ⟨⟩; exact hx.1, hy⟩))
    (yields_ok ⟨nofun, hx⟩)

theorem repPhase_yields {x : Located} {c : Cursor} (hx : Looked buf st x c) :
    Yields buf st (fun p => Looked buf st p.1.2 p.2) (repPhase x c) :=
  yields_ite
    ((readLocated_yields hx.2).bind fun _ hy => yields_ite
      (yields_ok hy) (yields_error (placedError_invalidField hy.2 hy.1 _)))
    (yields_ok hx)

theorem prefixPhase_yields {c : Cursor} (hc : c.Within buf st) :
    Yields buf st (fun p => LatchHeld buf st p.1.1.seg ∧ Looked buf st p.1.2 p.2) (prefixPhase c) :=
  (lockPhase_yields hc).bind fun _ hx => (segPhase_yields hx).bind fun _ hy =>
    (repPhase_yields hy.2).bind fun _ hz => yields_ok ⟨hy.1, hz⟩

/-! ## The routines (R120 to R122, R136 to R158) -/

theorem readMem_yields {m : ModRM} {c : Cursor} (hc : c.Within buf st) :
    Yields buf st (fun p => p.2.Within buf st) (readMem m c) :=
  have hbyte {f : Byte → Mem} : Yields buf st (fun p => p.2.Within buf st) (c.readByte >>= fun p => .ok (f p.1, p.2)) :=
    (readByte_yields hc).bind fun _ h => yields_ok h.2
  have hword {f : Word → Mem} : Yields buf st (fun p => p.2.Within buf st) (c.readWord >>= fun p => .ok (f p.1, p.2)) :=
    (readWord_yields hc).bind fun _ h => yields_ok h
  yields_ite (yields_ite hword (yields_ok hc)) (yields_ite hbyte hword)

theorem readRm_yields {m : ModRM} {c : Cursor} (hc : c.Within buf st) :
    Yields buf st (fun p => p.2.Within buf st) (readRm m c) :=
  yields_ite (yields_ok hc) ((readMem_yields hc).bind fun _ h => yields_ok h)

theorem readImmW_yields {w : Width} {c : Cursor} (hc : c.Within buf st) :
    Yields buf st (fun p => p.2.Within buf st) (readImmW w c) := by
  cases w
  · exact (readByte_yields hc).bind fun _ h => yields_ok h.2
  · exact (readWord_yields hc).bind fun _ h => yields_ok h

theorem readImmSW_yields {s : Bool} {w : Width} {c : Cursor} (hc : c.Within buf st) :
    Yields buf st (fun p => p.2.Within buf st) (readImmSW s w c) := by
  cases w
  · exact (readByte_yields hc).bind fun _ h => yields_ok h.2
  · cases s
    · exact (readWord_yields hc).bind fun _ h => yields_ok h
    · exact (readByte_yields hc).bind fun _ h => yields_ok h.2

/-- A routine answers any instruction, or raises a placed error. -/
abbrev RoutineYields (buf : List Byte) (st : Nat) (r : Except ErrorRecord (Instr × Cursor)) : Prop :=
  Yields buf st (fun _ => True) r

variable {sg : Option SegLatch} {c : Cursor}

theorem segCheck_yields (hc : c.Within buf st) (hs : LatchHeld buf st sg) (hasMem : Bool) :
    Yields buf st (fun _ => True) (segCheck c sg hasMem) := by
  unfold segCheck
  split
  · exact yields_ok trivial
  · next l =>
    split
    · exact yields_ok trivial
    · exact yields_error (placedError_invalidField hc (hs l rfl) _)

/-- A check of the ModRM byte before the rest of a routine (R121). -/
theorem yields_modRM_check {m : ModRM} {p : Prop} [Decidable p] {f : FieldName} {r : Except ErrorRecord (Instr × Cursor)}
    (hc : c.Within buf st) (hm : HeldAt buf st m.off m.byte) (h : RoutineYields buf st r) :
    RoutineYields buf st (if p then .error (invalidField c.start m.off m.byte f) else r) :=
  yields_ite (yields_error (placedError_invalidField hc hm f)) h

section
variable (hc : c.Within buf st) (hs : LatchHeld buf st sg)
include hc hs

theorem noMem_yields {k : Cursor → Except ErrorRecord (Instr × Cursor)} (hk : RoutineYields buf st (k c)) :
    RoutineYields buf st (noMem sg c k) :=
  (segCheck_yields hc hs false).bind fun _ _ => hk

/-- The segment check and the r/m operand, then a routine's own part. -/
theorem rm_yields {m : ModRM} {k : Rm × Cursor → Except ErrorRecord (Instr × Cursor)}
    (hk : ∀ p, p.2.Within buf st → RoutineYields buf st (k p)) :
    RoutineYields buf st (segCheck c sg (!m.isReg) >>= fun _ => readRm m c >>= k) :=
  (segCheck_yields hc hs _).bind fun _ _ => (readRm_yields hc).bind hk

/-- The segment check and the memory operand, then a routine's own part. -/
theorem mem_yields {m : ModRM} {k : Mem × Cursor → Except ErrorRecord (Instr × Cursor)}
    (hk : ∀ p, p.2.Within buf st → RoutineYields buf st (k p)) :
    RoutineYields buf st (segCheck c sg true >>= fun _ => readMem m c >>= k) :=
  (segCheck_yields hc hs _).bind fun _ _ => (readMem_yields hc).bind hk

theorem regMemRoutine_yields {f : RegMemForm} {m : ModRM} {b : Byte} (hm : HeldAt buf st m.off m.byte) :
    RoutineYields buf st (regMemRoutine f m b sg c) := by
  cases f with
  | regMem mk => exact yields_modRM_check hc hm (mem_yields hc hs fun _ _ => yields_ok trivial)
  | mem16 mk => exact yields_modRM_check hc hm (mem_yields hc hs fun _ _ => yields_ok trivial)
  | rmSreg mk => exact yields_modRM_check hc hm (rm_yields hc hs fun _ _ => yields_ok trivial)
  | _ => exact rm_yields hc hs fun _ _ => yields_ok trivial

theorem groupRoutine_yields {row : GroupRow} {m : ModRM} {b : Byte} (hm : HeldAt buf st m.off m.byte) :
    RoutineYields buf st (groupRoutine row m b sg c) := by
  rcases row with f | ⟨mk⟩ | ⟨mk⟩
  · exact regMemRoutine_yields hc hs hm
  · exact rm_yields hc hs fun _ h => (readImmSW_yields h).bind fun _ _ => yields_ok trivial
  · exact rm_yields hc hs fun _ h => (readImmW_yields h).bind fun _ _ => yields_ok trivial

theorem byte_yields {f : Byte × Cursor → Instr × Cursor} :
    RoutineYields buf st (noMem sg c fun c => c.readByte >>= fun p => .ok (f p)) :=
  noMem_yields hc hs ((readByte_yields hc).bind fun _ _ => yields_ok trivial)

theorem word_yields {f : Word × Cursor → Instr × Cursor} :
    RoutineYields buf st (noMem sg c fun c => c.readWord >>= fun p => .ok (f p)) :=
  noMem_yields hc hs ((readWord_yields hc).bind fun _ _ => yields_ok trivial)

theorem bare_yields {f : Cursor → Instr × Cursor} : RoutineYields buf st (noMem sg c fun c => .ok (f c)) :=
  noMem_yields hc hs (yields_ok trivial)

theorem accRoutine_yields {f : AccForm} {b : Byte} : RoutineYields buf st (accRoutine f b sg c) := by
  cases f with
  | accImm mk => exact (segCheck_yields hc hs _).bind fun _ _ => (readImmW_yields hc).bind fun _ _ => yields_ok trivial
  | accMem mk => exact (segCheck_yields hc hs _).bind fun _ _ => (readWord_yields hc).bind fun _ _ => yields_ok trivial
  | port8 mk => exact byte_yields hc hs

theorem regImmRoutine_yields {mk : RegImm → Instr} {b : Byte} : RoutineYields buf st (regImmRoutine mk b sg c) := by
  unfold regImmRoutine
  cases fieldRegImmW b
  · exact byte_yields hc hs
  · exact word_yields hc hs

theorem otherRoutine_yields {f : OtherForm} : RoutineYields buf st (otherRoutine f sg c) := by
  cases f with
  | imm8 mk => exact byte_yields hc hs
  | imm16 mk => exact word_yields hc hs
  | aa i =>
    exact (segCheck_yields hc hs _).bind fun _ _ => (readLocated_yields hc).bind fun _ h => yields_ite
      (yields_ok trivial) (yields_error (placedError_invalidField h.2 h.1 _))

theorem routine_yields {t : Target} {x : Located} (hx : HeldAt buf st x.off x.byte) :
    RoutineYields buf st (routine t x sg c) := by
  have hunknown : PlacedError buf st (unknownOpcode c.start x.off x.byte) := placedError_unknownOpcode hc hx
  cases t with
  | refuse => exact yields_error hunknown
  | prefixByte sh => exact yields_error hunknown
  | group g =>
    refine (readModRM_yields hc).bind fun ⟨m, c₁⟩ ⟨hm, hc₁⟩ => ?_
    simp only
    split
    · exact yields_error (placedError_invalidField hc₁ hm _)
    · exact groupRoutine_yields hc₁ hs hm
  | regMemToFromReg f => exact (readModRM_yields hc).bind fun _ h => regMemRoutine_yields h.2 hs h.1
  | immediateToAccumulator f => exact accRoutine_yields hc hs
  | immediateToRegister mk => exact regImmRoutine_yields hc hs
  | shortJump mk => exact byte_yields hc hs
  | nearProcLabel mk => exact word_yields hc hs
  | farProcLabel mk =>
    exact (segCheck_yields hc hs _).bind fun _ _ => (readWord_yields hc).bind fun _ h =>
      (readWord_yields h).bind fun _ _ => yields_ok trivial
  | registerOnly mk => exact bare_yields hc hs
  | segmentRegisterOnly mk => exact bare_yields hc hs
  | noOperand f => cases f <;> exact bare_yields hc hs
  | other f => exact otherRoutine_yields hc hs

end

theorem decodeFrom_yields (hc : c.Within buf st) : RoutineYields buf st (decodeFrom c) := by
  refine (prefixPhase_yields hc).bind fun ⟨⟨p, x⟩, c₁⟩ ⟨hseg, hx, hc₁⟩ => ?_
  simp only
  split
  · exact yields_error (placedError_unknownOpcode hc₁ hx)
  · exact (routine_yields hc₁ hseg hx).bind fun _ _ => yields_ok trivial

/-- Every decode error is placed (R26, R382 to R385). -/
theorem decodeOne_error {e : ErrorRecord} (hst : st ≤ buf.length) (h : decodeOne buf st = .error e) :
    PlacedError buf st e := by
  have hone : Yields buf st (fun _ => True) (decodeOne buf st) :=
    (decodeFrom_yields (Cursor.within_at hst)).bind fun _ _ => yields_ok trivial
  exact hone.2 e h

end

end Sys2Proof
end

section
/-! What a step can do (R36, R111), and the invariant of the state vector (R23 to R27): O1 to O7, O10. -/

namespace Sys2Proof

open Machine

/-! ## Reset (R34, R35) -/

/-- Settles O1: the two header lines are R167's texts. -/
theorem resetValues : Obligations.ResetValues := fun _ _ _ => ⟨rfl, rfl, rfl, rfl, rfl, rfl, rfl⟩

/-- Settles O2: with `Len = 0` the cursor is at the end, so the step is the end of the buffer. -/
theorem emptyBufferEndsAtOnce : Obligations.EmptyBufferEndsAtOnce :=
  fun name base => ⟨rfl, (State.resetWith [] name base).finish, rfl, rfl, rfl, rfl, rfl⟩

/-! ## One instruction -/

/-- The only next state a meaning can answer (R111). -/
theorem exec_eq_next_iff {i : Instr} {s t : State} :
    exec i s = .next t ↔ WellFormed i ∧ t = s.emit (lineOf i s) (s.cursor + i.length) := by
  by_cases hwf : WellFormed i
  · rw [exec_of_wf s hwf, Host.Outcome.next.injEq, and_iff_right hwf, eq_comm]
  · rw [exec_eq_emitRow, emitRow_of_not_wf _ _ hwf]
    exact ⟨nofun, fun h => absurd h.1 hwf⟩

/-- Settles O10: the only next state is the one with the line appended and the cursor moved. -/
theorem instructionFrame : Obligations.InstructionFrame := by
  intro i s t h
  obtain ⟨hwf, rfl⟩ := exec_eq_next_iff.1 h
  exact ⟨hwf, ⟨_, rfl⟩, by rw [State.emit_cursor, length_encode], rfl, rfl, rfl, rfl, rfl, fun _ => rfl⟩

/-! ## The step -/

/-- Instruction `i` is decoded at the cursor: it is well formed and its bytes stand there. -/
structure DecodesTo (s : State) (i : Instr) : Prop where
  wf : WellFormed i
  decoded : decodeOne s.buf s.cursor = .ok (i, s.cursor + i.length)
  le_len : s.cursor + i.length ≤ s.len
  bytes : s.buf.drop s.cursor = encode i ++ s.buf.drop (s.cursor + i.length)

theorem decodesTo_of_decodeOne {s : State} {i : Instr} {n : Nat} (h : decodeOne s.buf s.cursor = .ok (i, n)) :
    DecodesTo s i := by
  obtain ⟨hwf, rfl, hle, hbytes⟩ := decodeOne_ok h
  exact ⟨hwf, h, hle, hbytes⟩

/-- The three steps of a Running state (R36, R111): the end of the buffer, one instruction, a decode error. -/
theorem step_running {s : State} (hrun : s.status = .running) :
    (s.cursor = s.len ∧ step s = .next s.finish) ∨
    (s.cursor ≠ s.len ∧ ∃ i, DecodesTo s i ∧ step s = .next (s.emit (lineOf i s) (s.cursor + i.length))) ∨
    (s.cursor ≠ s.len ∧ ∃ e, decodeOne s.buf s.cursor = .error e ∧ step s = .next (s.takeError e)) := by
  obtain ⟨hne, -⟩ | ⟨-, hend, hstep⟩ | ⟨-, hne, i, n, hdecode, hstep⟩ | ⟨-, hne, e, hdecode, hstep⟩ := step_cases s
  · exact absurd hrun hne
  · exact .inl ⟨hend, hstep⟩
  · have hi := decodesTo_of_decodeOne hdecode
    exact .inr (.inl ⟨hne, i, hi, by rw [hstep, exec_of_wf s hi.wf]⟩)
  · exact .inr (.inr ⟨hne, e, hdecode, hstep⟩)

/-- Settles O7: no step is enabled in a terminal status. -/
theorem terminalStatesStop : Obligations.TerminalStatesStop := by
  intro s h
  obtain ⟨-, hstep⟩ | ⟨hrun, -⟩ | ⟨hrun, -⟩ | ⟨hrun, -⟩ := step_cases s
  · exact hstep
  all_goals simp [hrun] at h

/-- Settles O6: each of the three steps answers a next state. -/
theorem runningStateSteps : Obligations.RunningStateSteps := by
  intro s hrun
  obtain ⟨-, hstep⟩ | ⟨-, i, -, hstep⟩ | ⟨-, e, -, hstep⟩ := step_running hrun
  · exact ⟨_, hstep⟩
  · exact ⟨_, hstep⟩
  · exact ⟨_, hstep⟩

/-- The next states of a step, with what led to them (R36, R111): only a Running state has one. -/
inductive StepTo (s : State) : State → Prop
  | finish (hrun : s.status = .running) (hend : s.cursor = s.len) : StepTo s s.finish
  | emit (i : Instr) (hrun : s.status = .running) (hne : s.cursor ≠ s.len) (hi : DecodesTo s i) :
      StepTo s (s.emit (lineOf i s) (s.cursor + i.length))
  | takeError (e : ErrorRecord) (hrun : s.status = .running) (hne : s.cursor ≠ s.len)
      (he : decodeOne s.buf s.cursor = .error e) : StepTo s (s.takeError e)

theorem stepTo_of_step {s t : State} (h : step s = .next t) : StepTo s t := by
  have hrun : s.status = .running := by
    obtain ⟨-, hstep⟩ | ⟨hrun, -⟩ | ⟨hrun, -⟩ | ⟨hrun, -⟩ := step_cases s
    · rw [hstep] at h; cases h
    all_goals exact hrun
  obtain ⟨hend, hstep⟩ | ⟨hne, i, hi, hstep⟩ | ⟨hne, e, he, hstep⟩ := step_running hrun <;>
    obtain rfl := Host.Outcome.next.inj (hstep.symm.trans h)
  · exact .finish hrun hend
  · exact .emit i hrun hne hi
  · exact .takeError e hrun hne he

/-- Settles O5: the three kinds of step, each with its next state. -/
theorem stepTransitions : Obligations.StepTransitions := by
  intro s t h
  cases stepTo_of_step h with
  | finish hrun hend => exact ⟨hrun, .inr (.inl ⟨rfl, hend, rfl⟩)⟩
  | emit i hrun hne hi => exact ⟨hrun, .inl ⟨hrun, hne, Nat.lt_add_of_pos_right (length_pos i), _, rfl⟩⟩
  | takeError e hrun hne he => exact ⟨hrun, .inr (.inr ⟨rfl, hne, e, he, rfl⟩)⟩

/-! ## The invariant -/

theorem headerLine_plain {name : String} (h : isPlain name = true) : isPlain (headerLine name) = true :=
  (plainText_iff _).1 ((plainText_of "; " rfl).append ((plainText_iff _).2 h))

/-- The line of any instruction is ASCII without line breaks (R27). -/
theorem lineOf_plain (i : Instr) (s : State) : isPlain (lineOf i s) = true := by
  obtain ⟨hmnemonic, hops⟩ := rowOf_good i (latchesOf i s)
  exact (plainText_iff _).1 (render_good _ _ hmnemonic hops).1

/-- Settles O3. -/
theorem invReset : Obligations.InvReset := by
  intro buf name base hname
  exact {
    cursor_le := Nat.zero_le _
    error_iff := ⟨nofun, nofun⟩
    done_end := nofun
    error_fields := nofun
    error_place := nofun
    headers := rfl
    lines_le := le_rfl
    name_plain := hname
    lines_plain := by
      intro t ht
      simp only [State.resetWith_listing, List.mem_cons, List.not_mem_nil, or_false] at ht
      obtain rfl | rfl := ht
      · exact headerLine_plain hname
      · decide }

/-- A Running state with the invariant has no error record (R26). -/
theorem Inv.error_eq_none {s : State} (hs : Inv s) (hrun : s.status = .running) : s.error = none := by
  have hne : s.error.isSome ≠ true := fun h => by simp [hs.error_iff.1 h] at hrun
  simpa using hne

/-- The header lines are two (R27, R167). -/
theorem Inv.two_le_length {s : State} (hs : Inv s) : 2 ≤ s.listing.length := by
  have hlen : min 2 s.listing.length = 2 := by simpa using congrArg List.length hs.headers
  omega

/-- The end of the buffer keeps the invariant. -/
theorem Inv.finish {s : State} (hs : Inv s) (hrun : s.status = .running) (hend : s.cursor = s.len) : Inv s.finish where
  cursor_le := hs.cursor_le
  error_iff := by simp [hs.error_eq_none hrun]
  done_end _ := hend
  error_fields := hs.error_fields
  error_place := hs.error_place
  headers := hs.headers
  lines_le := hs.lines_le
  name_plain := hs.name_plain
  lines_plain := hs.lines_plain

/-- An instruction keeps the invariant: its line is plain, and it consumes at least one byte and none past the end. -/
theorem Inv.emit {s : State} (hs : Inv s) {i : Instr} (hrun : s.status = .running) (hi : DecodesTo s i) :
    Inv (s.emit (lineOf i s) (s.cursor + i.length)) where
  cursor_le := hi.le_len
  error_iff := hs.error_iff
  done_end h := by simp [hrun] at h
  error_fields := hs.error_fields
  error_place e he := by simp [hs.error_eq_none hrun] at he
  headers := by
    rw [State.emit_listing, List.take_append_of_le_length hs.two_le_length]
    exact hs.headers
  lines_le := by
    have hle := hs.lines_le
    have hpos := length_pos i
    simp only [State.emit_listing, List.length_append, List.length_singleton, State.emit_cursor]
    omega
  name_plain := hs.name_plain
  lines_plain t ht := by
    rw [State.emit_listing, List.mem_append, List.mem_singleton] at ht
    obtain ht | rfl := ht
    · exact hs.lines_plain t ht
    · exact lineOf_plain i s

/-- A decode error keeps the invariant: the record is filled and placed as the decoder's errors are. -/
theorem Inv.takeError {s : State} (hs : Inv s) {e : ErrorRecord} (he : decodeOne s.buf s.cursor = .error e) :
    Inv (s.takeError e) := by
  have hplaced := decodeOne_error hs.cursor_le he
  have hplace : errorPlaceOk (s.takeError e) e :=
    ⟨hplaced.start_eq, hplaced.start_eq ▸ hplaced.st_le, hplaced.byte_held, hplaced.missing_end⟩
  exact {
    cursor_le := hs.cursor_le
    error_iff := by simp
    done_end := nofun
    error_fields := by rintro _ ⟨⟩; exact hplaced.fields
    error_place := by rintro _ ⟨⟩; exact hplace
    headers := hs.headers
    lines_le := hs.lines_le
    name_plain := hs.name_plain
    lines_plain := hs.lines_plain }

/-- Settles O4, one lemma per kind of step. -/
theorem invStep : Obligations.InvStep := by
  intro s t hs h
  cases stepTo_of_step h with
  | finish hrun hend => exact hs.finish hrun hend
  | emit i hrun _ hi => exact hs.emit hrun hi
  | takeError e _ _ he => exact hs.takeError he

end Sys2Proof
end

section
/-! The instruction pointer and the near branches (R33, R134, R150), and what a prefix puts in front of a line (R114, R116):
O43, O49, O54. -/

namespace Sys2Proof

open Machine

/-! ## Addresses modulo 65536 (R33, R134) -/

/-- The instruction pointer as a number: the sum of words is the sum of numbers modulo 65536 (R33). -/
theorem Machine.State.ip_toNat (s : State) (o : Nat) : (s.ip o).toNat = (s.loadBase.toNat + o) % 65536 := by
  rw [State.ip, BitVec.toNat_add, BitVec.toNat_ofNat]
  omega

/-- A near target as a sum of numbers, the displacement signed (R134). -/
theorem Machine.nearTarget_toNat (d : Word) (L : Latches) :
    ((nearTarget d L).toNat : Int) = ((L.loadBase.toNat : Int) + (L.pos : Int) + d.toInt) % 65536 := by
  rw [nearTarget, BitVec.toNat_add, BitVec.toNat_add, BitVec.toNat_ofNat, BitVec.toInt_eq_toNat_bmod, Int.bmod_def]
  split <;> omega

/-- Settles O54. -/
theorem instructionPointer : Obligations.InstructionPointer := by
  intro s o d L
  refine ⟨State.ip_toNat s o, fun hbase => ?_⟩
  rw [nearTarget_toNat, State.ip_toNat, hbase]
  omega

/-! ## Form REL16 with and without LOCK (R150) -/

theorem ite_lock_eq_wrap (lock : Bool) (i : Instr) :
    (if lock then Instr.lock i else i) = (BodyPrefix.mk lock none).wrap i := by
  cases lock <;> rfl

/-- The line of a near branch, with or without LOCK. -/
theorem nearBranch_exec {i : Instr} {name : String} {disp : Word} (hp : i.isPrefixed = false) (hwf : WellFormed i)
    (hlen : i.length = 3) (hrow : ∀ L, rowOf i L = ⟨name, opsRel16 disp L⟩) (lock : Bool) (s : State) :
    exec (if lock then .lock i else i) s = .next (s.emit
      ((if lock then "LOCK " else "") ++ name ++ " " ++
        dec (((s.loadBase.toNat : Int) + ((s.cursor + (if lock then 4 else 3) : Nat) : Int) + disp.toInt) % 65536).toNat)
      (s.cursor + (if lock then 4 else 3))) := by
  have hcount : (BodyPrefix.mk lock none).count + 3 = if lock then 4 else 3 := by cases lock <;> rfl
  rw [ite_lock_eq_wrap, exec_wrap _ _ _ (BodyPrefix.wf_wrap _ hwf hp (by simp)) hp, hrow, hlen, hcount, opsRel16, opsText_one,
    Operand.text, ← nearTarget_toNat disp ⟨lock, none, none, s.cursor, _, s.loadBase⟩, Int.toNat_natCast, BodyPrefix.lead,
    ← String.append_assoc]

/-- Settles O43: both rows are of form REL16. -/
theorem nearBranchRows : Obligations.NearBranchRows := by
  intro row hrow lock disp s
  simp only [List.mem_cons, List.not_mem_nil, or_false] at hrow
  obtain rfl | rfl := hrow
  · exact nearBranch_exec rfl rfl rfl (fun _ => rfl) lock s
  · exact nearBranch_exec rfl rfl rfl (fun _ => rfl) lock s

/-! ## What a prefix puts in front of the line -/

/-- A latch `lock` once set stays set (R114). -/
theorem Machine.Latches.lock_ofPrefixes (i : Instr) {L : Latches} (h : L.lock = true) : (Latches.ofPrefixes i L).lock = true := by
  induction i generalizing L with
  | lock body ih => exact ih rfl
  | seg sr body ih | rep body ih | repne body ih => exact ih h
  | _ => exact h

/-- A line with the latch `lock` begins with LOCK (R114). -/
theorem render_lock {L : Latches} (row : Row) (h : L.lock = true) : ∃ rest, render L row = "LOCK " ++ rest := by
  simp only [render, lineLead, h, if_true, String.append_assoc]
  exact ⟨_, rfl⟩

/-- A line with a repeat latch and no `lock` begins with the repeat prefix's name (R116). -/
theorem render_rep {L : Latches} {k : RepKind} (row : Row) (hl : L.lock = false) (hr : L.rep = some k) :
    ∃ rest, render L row = repName k ++ " " ++ rest := by
  simp only [render, lineLead, hl, hr, Bool.false_eq_true, if_false, String.empty_append, String.append_assoc]
  exact ⟨_, rfl⟩

/-- A repeat prefix before a string instruction sets the latch `rep` alone (R116). -/
theorem Machine.Latches.ofPrefixes_rep (k : RepKind) {i : Instr} (h : i.isStringOp = true) (L : Latches) :
    Latches.ofPrefixes (k.wrap i) L = { L with rep := some k } := by
  cases k <;> exact Latches.ofPrefixes_plain i (i.isPrefixed_of_string h) _

theorem lineOf_lock (body : Instr) (s : State) : ∃ rest, lineOf (.lock body) s = "LOCK " ++ rest :=
  render_lock _ (Latches.lock_ofPrefixes body rfl)

theorem lineOf_rep {k : RepKind} {body : Instr} (h : body.isStringOp = true) (s : State) :
    ∃ rest, lineOf (k.wrap body) s = repName k ++ " " ++ rest := by
  rw [lineOf, latchesOf, Latches.ofPrefixes_rep k h]
  exact render_rep _ rfl rfl

/-- A well-formed instruction one byte longer than `body`. -/
theorem exec_of_wf_prefixed {i body : Instr} (h : WellFormed i) (hlen : i.length = 1 + body.length) (s : State) :
    exec i s = .next (s.emit (lineOf i s) (s.cursor + 1 + (encode body).length)) := by
  rw [exec_of_wf s h, hlen, length_encode, Nat.add_assoc]

theorem exec_rep_wrap {k : RepKind} {body : Instr} (h : WellFormed (k.wrap body)) (s : State) :
    ∃ rest, exec (k.wrap body) s = .next (s.emit (repName k ++ " " ++ rest) (s.cursor + 1 + (encode body).length)) := by
  have hstring : body.isStringOp = true := by
    rw [WellFormed, RepKind.wf_wrap, Bool.and_eq_true] at h
    exact h.2
  obtain ⟨rest, hline⟩ := lineOf_rep hstring s
  exact ⟨rest, by rw [exec_of_wf_prefixed h (k.length_wrap body) s, hline]⟩

/-- Settles O49: the line's beginning is the lead the prefix's latch gives. -/
theorem prefixedInstructionsComplete : Obligations.PrefixedInstructionsComplete := by
  intro body sr s
  refine ⟨fun h => ?_, fun h => ⟨_, exec_of_wf_prefixed h rfl s⟩, fun h => exec_rep_wrap (k := .rep) h s,
    fun h => exec_rep_wrap (k := .repne) h s⟩
  obtain ⟨rest, hline⟩ := lineOf_lock body s
  exact ⟨rest, by rw [exec_of_wf_prefixed h rfl s, hline]⟩

end Sys2Proof
end

section
/-! Runs from reset (R171): what a run over a program does, and what a run has done in every state it passes through: O58 to O60. -/

namespace Sys2Proof

open Machine

/-! ## Runs -/

theorem afterStep_of_next {s t : State} (h : step s = .next t) : afterStep s = t := by
  rw [afterStep, h]

/-- A terminal state stays (R25). -/
theorem afterStep_of_not_running {s : State} (h : s.status ≠ .running) : afterStep s = s := by
  obtain ⟨-, hstep⟩ | ⟨hrun, -⟩ | ⟨hrun, -⟩ | ⟨hrun, -⟩ := step_cases s
  · rw [afterStep, hstep]
  all_goals exact absurd hrun h

/-- A state is left as it is, or the step has a next state. -/
theorem afterStep_cases (s : State) :
    (s.status ≠ .running ∧ afterStep s = s) ∨ StepTo s (afterStep s) := by
  by_cases hrun : s.status = .running
  · obtain ⟨t, hstep⟩ := runningStateSteps s hrun
    rw [afterStep_of_next hstep]
    exact .inr (stepTo_of_step hstep)
  · exact .inl ⟨hrun, afterStep_of_not_running hrun⟩

theorem afterSteps_add (m n : Nat) (s : State) : afterSteps (m + n) s = afterSteps n (afterSteps m s) := by
  induction m generalizing s with
  | zero => rw [Nat.zero_add]; rfl
  | succ m ih => rw [Nat.succ_add]; exact ih (afterStep s)

theorem afterSteps_succ (k : Nat) (s : State) : afterSteps (k + 1) s = afterStep (afterSteps k s) := afterSteps_add k 1 s

theorem afterSteps_of_not_running (k : Nat) {s : State} (h : s.status ≠ .running) : afterSteps k s = s := by
  induction k with
  | zero => rfl
  | succ k ih => rw [afterSteps_succ, ih, afterStep_of_not_running h]

/-- What holds at the start and is kept by every step holds of every state a run passes through. -/
theorem afterSteps_induction {P : State → Prop} {s : State} (h : P s) (hstep : ∀ u t, P u → StepTo u t → P t) (k : Nat) :
    P (afterSteps k s) := by
  induction k with
  | zero => exact h
  | succ k ih =>
    rw [afterSteps_succ]
    obtain ⟨-, heq⟩ | hto := afterStep_cases (afterSteps k s)
    · rwa [heq]
    · exact hstep _ _ ih hto

/-- A run that is still Running has consumed a byte in each step (R171). -/
theorem le_cursor_of_running {s : State} (k : Nat) (h : (afterSteps k s).status = .running) :
    s.cursor + k ≤ (afterSteps k s).cursor := by
  induction k with
  | zero => exact le_rfl
  | succ k ih =>
    rw [afterSteps_succ] at h ⊢
    obtain ⟨hne, heq⟩ | hto := afterStep_cases (afterSteps k s)
    · rw [heq] at h; exact absurd h hne
    · generalize afterStep (afterSteps k s) = t at h hto ⊢
      cases hto with
      | finish _ _ => cases h
      | emit i hrun _ _ =>
        have hpos := length_pos i
        have hle := ih hrun
        simp only [State.emit_cursor]
        omega
      | takeError e _ _ _ => cases h

/-! ## Programs -/

theorem programBytes_append (is js : List Instr) : programBytes (is ++ js) = programBytes is ++ programBytes js :=
  List.flatMap_append

theorem programBytes_cons (i : Instr) (is : List Instr) : programBytes (i :: is) = encode i ++ programBytes is := rfl

/-- A program has at least as many bytes as instructions (R67). -/
theorem length_le_programBytes (is : List Instr) : is.length ≤ (programBytes is).length := by
  induction is with
  | nil => exact Nat.zero_le _
  | cons i is ih =>
    have hpos := length_pos i
    rw [programBytes_cons, List.length_append, length_encode, List.length_cons]
    omega

/-- A line depends on the cursor and the load base alone (R170). -/
theorem lineOf_congr (i : Instr) {s u : State} (hbase : s.loadBase = u.loadBase) (hcur : s.cursor = u.cursor) :
    lineOf i s = lineOf i u := by
  have hlatches : latchesOf i s = latchesOf i u := by rw [latchesOf, latchesOf, hbase, hcur]
  rw [lineOf, lineOf, hlatches]

theorem programLines_congr (is : List Instr) {s u : State} (hbase : s.loadBase = u.loadBase) (hcur : s.cursor = u.cursor) :
    programLines s is = programLines u is := by
  induction is generalizing s u with
  | nil => rfl
  | cons i is ih =>
    exact congrArg₂ List.cons (lineOf_congr i hbase hcur) (ih hbase (congrArg (· + i.length) hcur))

theorem length_programLines (s : State) (is : List Instr) : (programLines s is).length = is.length := by
  induction is generalizing s with
  | nil => rfl
  | cons i is ih => exact congrArg Nat.succ (ih _)

/-- The line of one more instruction, which stands behind the program's bytes. -/
theorem programLines_append_singleton (s u : State) (is : List Instr) (i : Instr) (hbase : u.loadBase = s.loadBase)
    (hcur : u.cursor = s.cursor + (programBytes is).length) :
    programLines s (is ++ [i]) = programLines s is ++ [lineOf i u] := by
  induction is generalizing s with
  | nil => exact congrArg (fun l => [l]) (lineOf_congr i hbase.symm hcur.symm)
  | cons j is ih =>
    refine congrArg (List.cons _) (ih { s with cursor := s.cursor + j.length } hbase ?_)
    rw [hcur, programBytes_cons, List.length_append, length_encode, Nat.add_assoc]

/-! ## A run over a program (R55) -/

/-- Where a program stands at the cursor, each step decodes the next instruction and appends its line. -/
theorem afterSteps_program {is : List Instr} (hwf : ∀ i ∈ is, WellFormed i) {s : State} (hrun : s.status = .running)
    {tail : List Byte} (hbuf : s.buf.drop s.cursor = programBytes is ++ tail) :
    afterSteps is.length s =
      { s with listing := s.listing ++ programLines s is, cursor := s.cursor + (programBytes is).length } := by
  induction is generalizing s with
  | nil => simp [afterSteps, programLines, programBytes]
  | cons i is ih =>
    have hi : WellFormed i := hwf i List.mem_cons_self
    rw [programBytes_cons, List.append_assoc] at hbuf
    have hne : s.cursor ≠ s.len := by
      intro heq
      have hlen := congrArg List.length hbuf
      have hpos := length_pos i
      simp only [List.length_drop, List.length_append, length_encode, heq, State.len] at hlen
      omega
    have hstep : afterStep s = s.emit (lineOf i s) (s.cursor + i.length) := by
      apply afterStep_of_next
      obtain ⟨hend, -⟩ | ⟨-, j, hj, hstep⟩ | ⟨-, e, he, -⟩ := step_running hrun
      · exact absurd hend hne
      · cases hj.decoded.symm.trans (decodeOne_of_drop hi hbuf)
        exact hstep
      · cases he.symm.trans (decodeOne_of_drop hi hbuf)
    have hrest : s.buf.drop (s.cursor + i.length) = programBytes is ++ tail := by
      rw [← List.drop_drop, hbuf, ← length_encode, List.drop_left]
    have hlines : programLines (s.emit (lineOf i s) (s.cursor + i.length)) is =
        programLines { s with cursor := s.cursor + i.length } is := programLines_congr is rfl rfl
    have hafter := ih (fun j hj => hwf j (List.mem_cons_of_mem i hj)) (s := s.emit (lineOf i s) (s.cursor + i.length)) hrun hrest
    rw [List.length_cons, afterSteps, hstep, hafter, hlines, programBytes_cons, List.length_append, length_encode]
    simp only [State.emit, programLines, lineOf, List.append_assoc, List.singleton_append, Nat.add_assoc]

/-- A run over a program's bytes is Done one step after its last instruction. -/
theorem afterSteps_programBytes {is : List Instr} (hwf : ∀ i ∈ is, WellFormed i) (name : String) (base : Word) :
    let s := State.resetWith (programBytes is) name base
    afterSteps (is.length + 1) s =
      { s with listing := s.listing ++ programLines s is, cursor := s.len, status := .done } := by
  intro s
  have hprogram := afterSteps_program hwf (s := s) rfl (tail := []) (by simp [s])
  rw [afterSteps_succ, hprogram]
  have hend : s.cursor + (programBytes is).length = s.len := Nat.zero_add _
  apply afterStep_of_next
  rw [hend]
  obtain ⟨-, hstep⟩ | ⟨hne, -⟩ | ⟨hne, -⟩ := step_running
    (s := { s with listing := s.listing ++ programLines s is, cursor := s.len }) rfl
  · exact hstep
  all_goals exact absurd rfl hne

/-- Settles O58. -/
theorem programListing : Obligations.ProgramListing := by
  intro is name base hwf s t
  have ht : t = { s with listing := s.listing ++ programLines s is, cursor := s.len, status := .done } :=
    afterSteps_programBytes hwf name base
  rw [ht]
  exact ⟨rfl, rfl, rfl, rfl, length_programLines s is⟩

/-! ## Every state of a run -/

/-- What a run that began at `s₀` has done in state `s`: the buffer up to the cursor is the program `is`, and the listing has its
lines; Done is at the end of the buffer, and Error comes with the record that decoding at the cursor raises (R25, R387). -/
structure HasDecoded (s₀ : State) (is : List Instr) (s : State) : Prop where
  wf : ∀ i ∈ is, WellFormed i
  buf_eq : s.buf = s₀.buf
  base_eq : s.loadBase = s₀.loadBase
  cursor_le : s.cursor ≤ s.len
  bytes : s.buf.take s.cursor = programBytes is
  listing_eq : s.listing = s₀.listing ++ programLines s₀ is
  done_end : s.status = .done → s.cursor = s.len
  error_raised : s.status = .error → ∃ e, s.error = some e ∧ decodeOne s.buf s.cursor = .error e

theorem hasDecoded_reset (buf : List Byte) (name : String) (base : Word) :
    HasDecoded (State.resetWith buf name base) [] (State.resetWith buf name base) where
  wf := nofun
  buf_eq := rfl
  base_eq := rfl
  cursor_le := Nat.zero_le _
  bytes := rfl
  listing_eq := rfl
  done_end := nofun
  error_raised := nofun

/-- An instruction at the cursor is one more of the program. -/
theorem HasDecoded.emit {s₀ s : State} {is : List Instr} (h : HasDecoded s₀ is s) (hcur : s₀.cursor = 0)
    (hrun : s.status = .running) {i : Instr} (hi : DecodesTo s i) :
    HasDecoded s₀ (is ++ [i]) (s.emit (lineOf i s) (s.cursor + i.length)) where
  wf := by
    intro j hj
    rw [List.mem_append, List.mem_singleton] at hj
    obtain hj | rfl := hj
    · exact h.wf j hj
    · exact hi.wf
  buf_eq := h.buf_eq
  base_eq := h.base_eq
  cursor_le := hi.le_len
  bytes := by
    have hone : (s.buf.drop s.cursor).take i.length = encode i := by
      rw [hi.bytes, ← length_encode, List.take_left]
    rw [State.emit_buf, State.emit_cursor, List.take_add, h.bytes, hone, programBytes_append]
    exact congrArg _ (List.append_nil _).symm
  listing_eq := by
    have hlen : (programBytes is).length = s.cursor := by
      rw [← h.bytes, List.length_take, Nat.min_eq_left h.cursor_le]
    rw [State.emit_listing, h.listing_eq, programLines_append_singleton s₀ s is i h.base_eq (by omega), List.append_assoc]
  done_end hd := by rw [State.emit_status, hrun] at hd; cases hd
  error_raised he := by rw [State.emit_status, hrun] at he; cases he

theorem HasDecoded.step {s₀ s t : State} (hcur : s₀.cursor = 0) (h : ∃ is, HasDecoded s₀ is s) (hto : StepTo s t) :
    ∃ is, HasDecoded s₀ is t := by
  obtain ⟨is, h⟩ := h
  cases hto with
  | finish hrun hend => exact ⟨is, { h with done_end := fun _ => hend, error_raised := nofun }⟩
  | emit i hrun _ hi => exact ⟨is ++ [i], h.emit hcur hrun hi⟩
  | takeError e _ _ he => exact ⟨is, { h with done_end := nofun, error_raised := fun _ => ⟨e, rfl, he⟩ }⟩

/-- Every state a run from reset passes through. -/
theorem hasDecoded_afterSteps (buf : List Byte) (name : String) (base : Word) (k : Nat) :
    ∃ is, HasDecoded (State.resetWith buf name base) is (afterSteps k (State.resetWith buf name base)) :=
  afterSteps_induction ⟨[], hasDecoded_reset buf name base⟩ (fun _ _ => HasDecoded.step rfl) k

/-- After Len + 1 steps a run has ended (R171). -/
theorem not_running_after_len (buf : List Byte) (name : String) (base : Word) :
    (afterSteps (buf.length + 1) (State.resetWith buf name base)).status ≠ .running := by
  intro hrun
  obtain ⟨is, h⟩ := hasDecoded_afterSteps buf name base (buf.length + 1)
  have hle := h.cursor_le
  have hge := le_cursor_of_running _ hrun
  rw [State.len, h.buf_eq, State.resetWith_buf] at hle
  omega

/-- Settles O59: a run that ends Done has decoded the whole buffer; a run over a program ends Done, and Done stays. -/
theorem doneExactlyForPrograms : Obligations.DoneExactlyForPrograms := by
  intro buf name base t
  refine ⟨⟨fun hdone => ?_, ?_⟩, fun hne => ?_⟩
  · obtain ⟨is, h⟩ := hasDecoded_afterSteps buf name base (buf.length + 1)
    refine ⟨is, h.wf, ?_⟩
    rw [← h.bytes, h.done_end hdone, State.len, List.take_length, h.buf_eq, State.resetWith_buf]
  · rintro ⟨is, hwf, rfl⟩
    have hend := afterSteps_programBytes hwf name base
    have hlen : (programBytes is).length + 1 = (is.length + 1) + ((programBytes is).length - is.length) := by
      have hle := length_le_programBytes is
      omega
    change (afterSteps ((programBytes is).length + 1) (State.resetWith (programBytes is) name base)).status = .done
    rw [hlen, afterSteps_add, afterSteps_of_not_running _ (by rw [hend]; nofun), hend]
  · have hnr : t.status ≠ .running := not_running_after_len buf name base
    cases hs : t.status with
    | running => exact absurd hs hnr
    | done => exact absurd hs hne
    | error => rfl

/-- Settles O60. -/
theorem errorIsPrecise : Obligations.ErrorIsPrecise := by
  intro buf name base s t herror
  obtain ⟨is, h⟩ : ∃ is, HasDecoded s is t := hasDecoded_afterSteps buf name base (buf.length + 1)
  have hbuf : t.buf = buf := h.buf_eq
  obtain ⟨e, he, hraised⟩ := h.error_raised herror
  have hstart : e.instrStart = t.cursor := (decodeOne_error h.cursor_le hraised).start_eq
  rw [hbuf] at hraised
  exact ⟨is, e, h.wf, hbuf ▸ h.bytes, he, hstart, hraised, h.listing_eq⟩

end Sys2Proof
end

section
/-! What reading a byte, a word or the memory of a state answers (R46 to R50, R53): O18 to O20. -/

namespace Sys2Proof

open Machine

/-! ## One byte, one word, the whole buffer -/

/-- Settles O18: the cursor's bytes begin with `Buf[c]`, or there are none. -/
theorem readByteRule : Obligations.ReadByteRule := by
  intro buf start c
  constructor
  · intro h
    rw [List.drop_eq_getElem_cons h, readByte_cons]
  · intro h
    rw [List.drop_eq_nil_of_le h, readByte_nil]
    rfl

/-- The high byte counts 256 times (R50). -/
theorem wordOf_toNat (lo hi : Byte) : (wordOf lo hi).toNat = lo.toNat + 256 * hi.toNat := by
  rw [wordOf, BitVec.toNat_append, ← Nat.shiftLeft_add_eq_or_of_lt lo.isLt, Nat.shiftLeft_eq]
  omega

/-- A word read of which a byte lacks answers how many of the two are not there (R49). -/
theorem readWord_of_short {c : Cursor} (h : c.rest.length < 2) :
    c.readWord = .error (endOfStream c.start c.pos (2 - c.rest.length)) := by
  cases hread : c.readWord with
  | error e => rw [(readWord_error hread).2]
  | ok p =>
    have hrest := (readWord_reads hread).1
    simp [hrest, wordBytes] at h

/-- Settles O19. -/
theorem readWordRule : Obligations.ReadWordRule := by
  intro buf start c
  constructor
  · intro h
    refine ⟨wordOf buf[c] buf[c + 1], wordOf_toNat _ _, ?_⟩
    rw [List.drop_eq_getElem_cons (i := c) (by omega), List.drop_eq_getElem_cons (i := c + 1) (by omega), readWord_cons]
  · intro hle hlt
    have hmissing : 2 - (buf.drop c).length = c + 2 - buf.length := by rw [List.length_drop]; omega
    rw [← hmissing]
    exact readWord_of_short (by rw [List.length_drop]; omega)

/-- Settles O20: reading the cells is reading the buffer. -/
theorem memoryIsTheBuffer : Obligations.MemoryIsTheBuffer := by
  intro s
  refine ⟨s.memory_wf, cellsFrom_length 0 s.buf, fun a h => ?_, fun a h => ?_⟩
  · rw [State.memory_read, memRead, List.getElem?_eq_getElem h]
  · rw [State.memory_read, memRead, List.getElem?_eq_none h]

end Sys2Proof
end

section
/-! Decoding with bytes put in front of the buffer (R51, R170): every reader, check and routine of the decoder answers the same
there, with all offsets moved: O24. -/

namespace Sys2Proof

open Machine

/-! ## Moving offsets -/

/-- The record with both its offsets moved by `n`. -/
def Machine.ErrorRecord.shift (n : Nat) (e : ErrorRecord) : ErrorRecord :=
  { e with instrStart := n + e.instrStart, offset := n + e.offset }

/-- The cursor over the same bytes, `n` offsets further. -/
def Cursor.shift (n : Nat) (c : Cursor) : Cursor := { c with start := n + c.start, pos := n + c.pos }

/-- The same ModRM byte, `n` offsets further. -/
def ModRM.shift (n : Nat) (m : ModRM) : ModRM := { m with off := n + m.off }

/-- The same byte, `n` offsets further. -/
def Located.shift (n : Nat) (x : Located) : Located := { x with off := n + x.off }

/-- The same segment prefix, `n` offsets further. -/
def SegLatch.shift (n : Nat) (l : SegLatch) : SegLatch := { l with off := n + l.off }

/-- The same prefixes, `n` offsets further: the segment latch alone records a place (R28). -/
def Prefixes.shift (n : Nat) (p : Prefixes) : Prefixes := { p with seg := p.seg.map (SegLatch.shift n) }

/-- The prefix rows do not keep where a prefix stood (R115). -/
theorem Prefixes.wrap_shift (n : Nat) (p : Prefixes) (i : Instr) : (p.shift n).wrap i = p.wrap i := by
  obtain ⟨lock, _ | l, rep⟩ := p <;> rfl

/-- Behind `front`, the cursor has the same bytes and all offsets moved. -/
theorem Cursor.at_append (front buf : List Byte) (start : Nat) :
    Cursor.at (front ++ buf) (front.length + start) = (Cursor.at buf start).shift front.length := by
  rw [Cursor.at, List.drop_length_add_append]
  rfl

/-- `r'` answers what `r` answers with its offsets moved by `f`, or raises the error that `r` raises with its offsets moved
by `n`. -/
def Shifts {α : Type} (n : Nat) (f : α → α) (r r' : Except ErrorRecord α) : Prop :=
  (∀ a, r = .ok a → r' = .ok (f a)) ∧ (∀ e, r = .error e → r' = .error (e.shift n))

/-- The same for a reader's value and the cursor behind it. -/
abbrev ReadShifts {α : Type} (n : Nat) (f : α → α) (r r' : Except ErrorRecord (α × Cursor)) : Prop :=
  Shifts n (Prod.map f (Cursor.shift n)) r r'

section
variable {α β : Type} {n : Nat}

theorem shifts_ok {f : α → α} {a : α} : Shifts n f (.ok a) (.ok (f a)) := ⟨by rintro _ ⟨⟩; rfl, nofun⟩

theorem shifts_error {f : α → α} {e : ErrorRecord} : Shifts n f (.error e) (.error (e.shift n)) := ⟨nofun, by rintro _ ⟨⟩; rfl⟩

theorem Shifts.bind {f : α → α} {g : β → β} {r r' : Except ErrorRecord α} {k k' : α → Except ErrorRecord β}
    (hr : Shifts n f r r') (hk : ∀ a, Shifts n g (k a) (k' (f a))) : Shifts n g (r >>= k) (r' >>= k') := by
  cases r with
  | ok a => rw [hr.1 a rfl]; exact hk a
  | error e => rw [hr.2 e rfl]; exact shifts_error

theorem shifts_ite {f : α → α} {p : Prop} [Decidable p] {r₁ r₁' r₂ r₂' : Except ErrorRecord α}
    (h₁ : Shifts n f r₁ r₁') (h₂ : Shifts n f r₂ r₂') : Shifts n f (if p then r₁ else r₂) (if p then r₁' else r₂') := by
  split
  · exact h₁
  · exact h₂

/-! ## The cursor -/

theorem readByte_shifts (c : Cursor) : ReadShifts n id c.readByte (c.shift n).readByte := by
  obtain ⟨st, p, _ | ⟨b, r⟩⟩ := c
  · exact shifts_error
  · exact shifts_ok

theorem readWord_shifts (c : Cursor) : ReadShifts n id c.readWord (c.shift n).readWord := by
  obtain ⟨st, p, _ | ⟨lo, _ | ⟨hi, r⟩⟩⟩ := c
  · exact shifts_error
  · exact shifts_error
  · exact shifts_ok

theorem readLocated_shifts (c : Cursor) : ReadShifts n (Located.shift n) c.readLocated (c.shift n).readLocated :=
  (readByte_shifts c).bind fun _ => shifts_ok

theorem readModRM_shifts (c : Cursor) : ReadShifts n (ModRM.shift n) c.readModRM (c.shift n).readModRM :=
  (readByte_shifts c).bind fun _ => shifts_ok

/-! ## The prefix phase (R113) -/

theorem lockPhase_shifts (c : Cursor) :
    ReadShifts n (Prod.map id (Located.shift n)) (lockPhase c) (lockPhase (c.shift n)) :=
  (readLocated_shifts c).bind fun _ => shifts_ite
    ((readLocated_shifts _).bind fun _ => shifts_ite shifts_error shifts_ok) shifts_ok

theorem segPhase_shifts (x : Located) (c : Cursor) :
    ReadShifts n (Prod.map (Option.map (SegLatch.shift n)) (Located.shift n)) (segPhase x c)
      (segPhase (x.shift n) (c.shift n)) :=
  shifts_ite ((readLocated_shifts c).bind fun _ => shifts_ite shifts_error shifts_ok) shifts_ok

theorem repPhase_shifts (x : Located) (c : Cursor) :
    ReadShifts n (Prod.map id (Located.shift n)) (repPhase x c) (repPhase (x.shift n) (c.shift n)) :=
  shifts_ite ((readLocated_shifts c).bind fun _ => shifts_ite shifts_ok shifts_error) shifts_ok

theorem prefixPhase_shifts (c : Cursor) :
    ReadShifts n (Prod.map (Prefixes.shift n) (Located.shift n)) (prefixPhase c) (prefixPhase (c.shift n)) :=
  (lockPhase_shifts c).bind fun _ => (segPhase_shifts _ _).bind fun _ => (repPhase_shifts _ _).bind fun _ => shifts_ok

/-! ## Operands (R122, R124, R129, R130) -/

theorem segCheck_shifts (c : Cursor) (sg : Option SegLatch) (hasMem : Bool) :
    Shifts n id (segCheck c sg hasMem) (segCheck (c.shift n) (sg.map (SegLatch.shift n)) hasMem) := by
  cases sg with
  | none => exact shifts_ok
  | some l => exact shifts_ite shifts_ok shifts_error

theorem readMem_shifts (m : ModRM) (c : Cursor) : ReadShifts n id (readMem m c) (readMem (m.shift n) (c.shift n)) :=
  have hbyte {f : Byte → Mem} : ReadShifts n id (c.readByte >>= fun p => .ok (f p.1, p.2))
      ((c.shift n).readByte >>= fun p => .ok (f p.1, p.2)) := (readByte_shifts c).bind fun _ => shifts_ok
  have hword {f : Word → Mem} : ReadShifts n id (c.readWord >>= fun p => .ok (f p.1, p.2))
      ((c.shift n).readWord >>= fun p => .ok (f p.1, p.2)) := (readWord_shifts c).bind fun _ => shifts_ok
  shifts_ite (shifts_ite hword shifts_ok) (shifts_ite hbyte hword)

theorem readRm_shifts (m : ModRM) (c : Cursor) : ReadShifts n id (readRm m c) (readRm (m.shift n) (c.shift n)) :=
  shifts_ite shifts_ok ((readMem_shifts m c).bind fun _ => shifts_ok)

theorem readImmW_shifts (w : Width) (c : Cursor) : ReadShifts n id (readImmW w c) (readImmW w (c.shift n)) := by
  cases w
  · exact (readByte_shifts c).bind fun _ => shifts_ok
  · exact (readWord_shifts c).bind fun _ => shifts_ok

theorem readImmSW_shifts (s : Bool) (w : Width) (c : Cursor) :
    ReadShifts n id (readImmSW s w c) (readImmSW s w (c.shift n)) := by
  cases w
  · exact (readByte_shifts c).bind fun _ => shifts_ok
  · cases s
    · exact (readWord_shifts c).bind fun _ => shifts_ok
    · exact (readByte_shifts c).bind fun _ => shifts_ok

/-! ## The routines (R136 to R158) -/

variable {sg : Option SegLatch} {c : Cursor}

/-- The segment check and the r/m operand, then a routine's own part. -/
theorem rm_shifts {m : ModRM} {k : Rm × Cursor → Except ErrorRecord (Instr × Cursor)}
    (hk : ∀ x c, ReadShifts n id (k (x, c)) (k (x, c.shift n))) :
    ReadShifts n id (segCheck c sg (!m.isReg) >>= fun _ => readRm m c >>= k)
      (segCheck (c.shift n) (sg.map (SegLatch.shift n)) (!m.isReg) >>= fun _ => readRm (m.shift n) (c.shift n) >>= k) :=
  (segCheck_shifts c sg _).bind fun _ => (readRm_shifts m c).bind fun p => hk p.1 p.2

/-- A check of the ModRM byte, the segment check and the memory operand (R121). -/
theorem mem_shifts {m : ModRM} {f : Mem → Instr} :
    ReadShifts n id
      (if m.isReg then .error (invalidField c.start m.off m.byte .mod)
        else segCheck c sg true >>= fun _ => readMem m c >>= fun p => .ok (f p.1, p.2))
      (if m.isReg then .error (invalidField (c.shift n).start (m.shift n).off m.byte .mod)
        else segCheck (c.shift n) (sg.map (SegLatch.shift n)) true >>= fun _ =>
          readMem (m.shift n) (c.shift n) >>= fun p => .ok (f p.1, p.2)) :=
  shifts_ite shifts_error ((segCheck_shifts c sg _).bind fun _ => (readMem_shifts m c).bind fun _ => shifts_ok)

theorem regMemRoutine_shifts (f : RegMemForm) (m : ModRM) (b : Byte) :
    ReadShifts n id (regMemRoutine f m b sg c)
      (regMemRoutine f (m.shift n) b (sg.map (SegLatch.shift n)) (c.shift n)) := by
  cases f with
  | regMem mk => exact mem_shifts
  | mem16 mk => exact mem_shifts
  | rmSreg mk => exact shifts_ite shifts_error (rm_shifts fun _ _ => shifts_ok)
  | _ => exact rm_shifts fun _ _ => shifts_ok

theorem groupRoutine_shifts (row : GroupRow) (m : ModRM) (b : Byte) :
    ReadShifts n id (groupRoutine row m b sg c)
      (groupRoutine row (m.shift n) b (sg.map (SegLatch.shift n)) (c.shift n)) := by
  rcases row with f | ⟨mk⟩ | ⟨mk⟩
  · exact regMemRoutine_shifts f m b
  · exact rm_shifts fun _ _ => (readImmSW_shifts _ _ _).bind fun _ => shifts_ok
  · exact rm_shifts fun _ _ => (readImmW_shifts _ _).bind fun _ => shifts_ok

theorem byte_shifts {f : Byte → Instr} :
    ReadShifts n id (noMem sg c fun c => c.readByte >>= fun p => .ok (f p.1, p.2))
      (noMem (sg.map (SegLatch.shift n)) (c.shift n) fun c => c.readByte >>= fun p => .ok (f p.1, p.2)) :=
  (segCheck_shifts c sg false).bind fun _ => (readByte_shifts c).bind fun _ => shifts_ok

theorem word_shifts {f : Word → Instr} :
    ReadShifts n id (noMem sg c fun c => c.readWord >>= fun p => .ok (f p.1, p.2))
      (noMem (sg.map (SegLatch.shift n)) (c.shift n) fun c => c.readWord >>= fun p => .ok (f p.1, p.2)) :=
  (segCheck_shifts c sg false).bind fun _ => (readWord_shifts c).bind fun _ => shifts_ok

theorem bare_shifts {i : Instr} :
    ReadShifts n id (noMem sg c fun c => .ok (i, c)) (noMem (sg.map (SegLatch.shift n)) (c.shift n) fun c => .ok (i, c)) :=
  (segCheck_shifts c sg false).bind fun _ => shifts_ok

theorem accRoutine_shifts (f : AccForm) (b : Byte) :
    ReadShifts n id (accRoutine f b sg c) (accRoutine f b (sg.map (SegLatch.shift n)) (c.shift n)) := by
  cases f with
  | accImm mk => exact (segCheck_shifts c sg false).bind fun _ => (readImmW_shifts _ c).bind fun _ => shifts_ok
  | accMem mk => exact (segCheck_shifts c sg true).bind fun _ => (readWord_shifts c).bind fun _ => shifts_ok
  | port8 mk => exact byte_shifts

theorem regImmRoutine_shifts (mk : RegImm → Instr) (b : Byte) :
    ReadShifts n id (regImmRoutine mk b sg c) (regImmRoutine mk b (sg.map (SegLatch.shift n)) (c.shift n)) := by
  refine (segCheck_shifts c sg false).bind fun _ => ?_
  cases fieldRegImmW b
  · exact (readByte_shifts c).bind fun _ => shifts_ok
  · exact (readWord_shifts c).bind fun _ => shifts_ok

theorem otherRoutine_shifts (f : OtherForm) :
    ReadShifts n id (otherRoutine f sg c) (otherRoutine f (sg.map (SegLatch.shift n)) (c.shift n)) := by
  cases f with
  | imm8 mk => exact byte_shifts
  | imm16 mk => exact word_shifts
  | aa i =>
    exact (segCheck_shifts c sg false).bind fun _ => (readLocated_shifts c).bind fun _ => shifts_ite shifts_ok shifts_error

theorem routine_shifts (t : Target) (x : Located) :
    ReadShifts n id (routine t x sg c) (routine t (x.shift n) (sg.map (SegLatch.shift n)) (c.shift n)) := by
  cases t with
  | refuse => exact shifts_error
  | prefixByte sh => exact shifts_error
  | group g =>
    refine (readModRM_shifts c).bind fun ⟨m, c₁⟩ => ?_
    dsimp only [Prod.map, ModRM.shift]
    cases groupTable g m.reg with
    | none => exact shifts_error
    | some row => exact groupRoutine_shifts row m x.byte
  | regMemToFromReg f => exact (readModRM_shifts c).bind fun p => regMemRoutine_shifts f p.1 x.byte
  | immediateToAccumulator f => exact accRoutine_shifts f x.byte
  | immediateToRegister mk => exact regImmRoutine_shifts mk x.byte
  | shortJump mk => exact byte_shifts
  | nearProcLabel mk => exact word_shifts
  | farProcLabel mk =>
    exact (segCheck_shifts c sg false).bind fun _ => (readWord_shifts c).bind fun _ =>
      (readWord_shifts _).bind fun _ => shifts_ok
  | registerOnly mk => exact bare_shifts
  | segmentRegisterOnly mk => exact bare_shifts
  | noOperand f => cases f <;> exact bare_shifts
  | other f => exact otherRoutine_shifts f

end

/-! ## Decoding (R112) -/

theorem decodeFrom_shifts (n : Nat) (c : Cursor) : ReadShifts n id (decodeFrom c) (decodeFrom (c.shift n)) := by
  refine (prefixPhase_shifts c).bind fun ⟨⟨p, x⟩, c₁⟩ => ?_
  dsimp only [Prod.map, Located.shift]
  cases dispatch x.byte with
  | none => exact shifts_error
  | some t =>
    refine (routine_shifts t x).bind fun q => ?_
    dsimp only [Prod.map]
    rw [Prefixes.wrap_shift]
    exact shifts_ok

theorem decodeOne_shifts (front buf : List Byte) (start : Nat) :
    Shifts front.length (Prod.map id (front.length + ·)) (decodeOne buf start)
      (decodeOne (front ++ buf) (front.length + start)) := by
  rw [decodeOne, decodeOne, Cursor.at_append]
  exact (decodeFrom_shifts _ _).bind fun _ => shifts_ok

/-- Settles O24: success and error of two decodings that differ by the front. -/
theorem earlierBytesDoNotMatter : Obligations.EarlierBytesDoNotMatter := fun front buf start =>
  have h := decodeOne_shifts front buf start
  ⟨fun i next hok => h.1 (i, next) hok, h.2⟩

end Sys2Proof
end

section
/-! Decoding the encoding (R169), and the encodings the block refuses (R80, R81, R83, R113, R118 to R122): O12, O16, O17, O25
to O28. -/

namespace Sys2Proof

open Machine

/-- Settles O12: `decodeOne_of_drop`, with the encoder's length for the decoder's. -/
theorem decodeOfEncode : Obligations.DecodeOfEncode := by
  intro i buf start tail hwf hbuf
  rw [decodeOne_of_drop hwf hbuf, length_encode]

/-- Settles O17. -/
theorem decodeWords : Obligations.DecodeWords := by
  unfold Obligations.DecodeWords
  and_intros <;> decide

/-! ## Errors of `DecodeOne` by its parts (R112) -/

section
variable {buf r : List Byte} {start : Nat} {e : ErrorRecord}

theorem decodeOne_of_prefix_error (hbuf : buf.drop start = r) (h : prefixPhase ⟨start, start, r⟩ = .error e) :
    decodeOne buf start = .error e := by
  simp [decodeOne, decodeFrom, Cursor.at, hbuf, h, bind, Except.bind]

variable {p : BodyPrefix} {b : Byte} (hbuf : buf.drop start = p.bytes ++ b :: r) (hb : isPrefixByte b = false)
include hbuf hb

theorem decodeOne_of_dispatch_none (hd : dispatch b = none) :
    decodeOne buf start = .error (unknownOpcode start (start + p.count) b) := by
  simp [decodeOne, decodeFrom, Cursor.at, hbuf, prefixPhase_body p b hb, hd, bind, Except.bind]

theorem decodeOne_of_routine_error {t : Target} (hd : dispatch b = some t)
    (hr : routine t ⟨b, start + p.count⟩ (p.latch start) ⟨start, start + p.count + 1, r⟩ = .error e) :
    decodeOne buf start = .error e := by
  simp [decodeOne, decodeFrom, Cursor.at, hbuf, prefixPhase_body p b hb, hd, hr, bind, Except.bind]

end

/-! ## The bytes of the prefix grammar as lists (R83) -/

theorem isPrefixByte_iff_mem (b : Byte) : isPrefixByte b = true ↔ b ∈ prefixBytes := by revert b; decide

theorem isStringByte_iff_mem (b : Byte) : isStringByte b = true ↔ b ∈ stringBytes := by revert b; decide

/-! ## Routines on a ModRM byte (R120) -/

section
variable {x : Located} {sg : Option SegLatch} {st o : Nat} {m : Byte} {r : List Byte}

theorem routine_regMem_cons (f : RegMemForm) :
    routine (.regMemToFromReg f) x sg ⟨st, o, m :: r⟩ = regMemRoutine f (ModRM.of m o) x.byte sg ⟨st, o + 1, r⟩ :=
  rfl

theorem routine_group_row {g : Group} {row : GroupRow} (h : groupTable g (ModRM.of m o).reg = some row) :
    routine (.group g) x sg ⟨st, o, m :: r⟩ = groupRoutine row (ModRM.of m o) x.byte sg ⟨st, o + 1, r⟩ := by
  simp [routine, Cursor.readModRM, h, bind, Except.bind, pure, Except.pure]

@[simp] theorem ModRM.byte_of (m : Byte) (o : Nat) : (ModRM.of m o).byte = m := rfl

@[simp] theorem ModRM.off_of (m : Byte) (o : Nat) : (ModRM.of m o).off = o := rfl

theorem routine_group_reserved {g : Group} (h : groupTable g (ModRM.of m o).reg = none) :
    routine (.group g) x sg ⟨st, o, m :: r⟩ = .error (invalidField st o m .reg) := by
  simp [routine, Cursor.readModRM, h, bind, Except.bind, pure, Except.pure]

end

@[simp] theorem ModRM.reg_modRMByte (mod : BitVec 2) (k rm : BitVec 3) (o : Nat) :
    (ModRM.of (modRMByte mod k rm) o).reg = k := by
  rw [ModRM.of_modRMByte]

@[simp] theorem ModRM.isReg_modRMByte (k rm : BitVec 3) (o : Nat) : (ModRM.of (modRMByte 3 k rm) o).isReg = true := by
  rw [ModRM.of_modRMByte]; rfl

theorem getLsbD_two_of_four_le (k : BitVec 3) : 4 ≤ k.toNat → k.getLsbD 2 = true := by revert k; decide

/-! ## A reserved ModRM.reg value of a group (R81(a)) -/

theorem dispatch_group_reserved : ∀ g ∈ reservedRegs, ∀ b ∈ g.1, ∃ t, isPrefixByte b = false ∧
    dispatch b = some (.group t) ∧ ∀ k ∈ g.2, (groupTable t k).isNone = true := by
  simp only [reservedRegs, List.forall_mem_cons, List.not_mem_nil, false_imp_iff, implies_true, and_true]
  and_intros <;> exact ⟨_, rfl, rfl, by decide⟩

/-- Settles O25: the group's row is looked up before anything else. -/
theorem reservedGroupEncodings : Obligations.ReservedGroupEncodings := by
  intro g hg b hb k hk mod rm p buf tail start hbuf
  obtain ⟨t, hnp, hd, hrow⟩ := dispatch_group_reserved g hg b hb
  exact decodeOne_of_routine_error hbuf hnp hd (routine_group_reserved (by simpa using hrow k hk))

/-! ## Memory needed, a segment register past the table, a base other than ten (R81(b), R81(c), R121, R154) -/

section
variable {x : Located} {sg : Option SegLatch} {st o : Nat} {k rm : BitVec 3} {r : List Byte}

theorem routine_regMem_reg {mk : RegField → Mem → Instr} :
    routine (.regMemToFromReg (.regMem mk)) x sg ⟨st, o, modRMByte 3 k rm :: r⟩ =
      .error (invalidField st o (modRMByte 3 k rm) .mod) := by
  simp only [routine_regMem_cons, regMemRoutine, ModRM.isReg_modRMByte, if_true, ModRM.off_of, ModRM.byte_of]

theorem routine_mem16_reg {g : Group} {mk : Mem → Instr} (h : groupTable g k = some (.regMemToFromReg (.mem16 mk))) :
    routine (.group g) x sg ⟨st, o, modRMByte 3 k rm :: r⟩ = .error (invalidField st o (modRMByte 3 k rm) .mod) := by
  rw [routine_group_row (by rwa [ModRM.reg_modRMByte])]
  simp only [groupRoutine, regMemRoutine, ModRM.isReg_modRMByte, if_true, ModRM.off_of, ModRM.byte_of]

theorem routine_rmSreg_bad {mk : Sreg → Rm → Instr} {mod : BitVec 2} (h : k.getLsbD 2 = true) :
    routine (.regMemToFromReg (.rmSreg mk)) x sg ⟨st, o, modRMByte mod k rm :: r⟩ =
      .error (invalidField st o (modRMByte mod k rm) .sreg) := by
  simp only [routine_regMem_cons, regMemRoutine, ModRM.reg_modRMByte, h, if_true, ModRM.off_of, ModRM.byte_of]

theorem routine_aa_bad {i : Instr} {b : Byte} (h : b ≠ 0x0A#8) :
    routine (.other (.aa i)) x none ⟨st, o, b :: r⟩ = .error (invalidField st o b .aamAadBase) := by
  simp [routine, otherRoutine, noMem, segCheck, Cursor.readLocated, Located.invalid, h, bind, Except.bind, pure, Except.pure]

end

/-- Settles O26: each field is checked where it is read, before the segment check. -/
theorem invalidFieldEncodings : Obligations.InvalidFieldEncodings := by
  refine ⟨fun b k rm p buf tail start hop hbuf => ?_, fun b mod k rm p buf tail start hop hk hbuf => ?_,
    fun b x lock buf tail start hop hx hbuf => ?_⟩
  · obtain rfl | rfl | rfl | ⟨rfl, rfl | rfl⟩ := hop
    iterate 3 exact decodeOne_of_routine_error hbuf rfl rfl routine_regMem_reg
    iterate 2 exact decodeOne_of_routine_error hbuf rfl rfl (routine_mem16_reg rfl)
  · have hbad := getLsbD_two_of_four_le k hk
    obtain rfl | rfl := hop
    iterate 2 exact decodeOne_of_routine_error hbuf rfl rfl (routine_rmSreg_bad hbad)
  · obtain rfl | rfl := hop
    iterate 2 exact decodeOne_of_routine_error hbuf rfl rfl (routine_aa_bad hx)

/-! ## Prefix misuse (R113) -/

theorem prefixPhase_lock_lock (st : Nat) (r : List Byte) :
    prefixPhase ⟨st, st, 0xF0 :: 0xF0 :: r⟩ = .error (invalidField st (st + 1) 0xF0 .prefixByte) := by
  simp [prefixPhase, lockPhase, Cursor.readLocated, Located.invalid, bind, Except.bind, pure, Except.pure]

/-- A prefix byte behind a segment prefix. -/
theorem prefixPhase_seg_prefix (lock : Bool) (sr : Sreg) {b : Byte} (hb : isPrefixByte b = true) (st : Nat) (r : List Byte) :
    prefixPhase ⟨st, st, (BodyPrefix.mk lock (some sr)).bytes ++ b :: r⟩ =
      .error (invalidField st (st + (BodyPrefix.mk lock (some sr)).count) b .prefixByte) := by
  cases lock <;> cases sr <;>
    simp [prefixPhase, lockPhase, segPhase, BodyPrefix.bytes, BodyPrefix.count, Cursor.readLocated, isSegByte, hb,
      Located.invalid, bind, Except.bind, pure, Except.pure]

/-- A byte that is no string opcode behind a repeat prefix. -/
theorem prefixPhase_rep_other (lock : Bool) (k : RepKind) {b : Byte} (hb : isStringByte b = false) (st : Nat)
    (r : List Byte) : prefixPhase ⟨st, st, (BodyPrefix.mk lock none).bytes ++ k.byte :: b :: r⟩ =
      .error (invalidField st (st + (BodyPrefix.mk lock none).count + 1) b .repFollow) := by
  cases lock <;> cases k <;>
    simp [prefixPhase, lockPhase, segPhase, repPhase, BodyPrefix.bytes, BodyPrefix.count, Cursor.readLocated, RepKind.byte,
      isSegByte, isRepByte, hb, Located.invalid, bind, Except.bind, pure, Except.pure]

/-- Settles O27: one lemma per part of the prefix phase. -/
theorem prefixMisuse : Obligations.PrefixMisuse := by
  refine ⟨fun buf tail start hbuf => decodeOne_of_prefix_error hbuf (prefixPhase_lock_lock start tail),
    fun lock sr b buf tail start hb hbuf =>
      decodeOne_of_prefix_error hbuf (prefixPhase_seg_prefix lock sr ((isPrefixByte_iff_mem b).2 hb) start tail),
    fun lock r b buf tail start hr hb hbuf => ?_⟩
  have hns : isStringByte b = false := by
    rw [← Bool.not_eq_true, isStringByte_iff_mem]; exact hb
  obtain rfl | rfl := hr
  · exact decodeOne_of_prefix_error hbuf (prefixPhase_rep_other lock .repne hns start tail)
  · exact decodeOne_of_prefix_error hbuf (prefixPhase_rep_other lock .rep hns start tail)

end Sys2Proof
end

section
/-! Which opcode bytes have an instruction (R80), and where a segment prefix without a memory operand is refused (R83(d), R122):
O16, O28. -/

namespace Sys2Proof

open Machine

/-! ## The opcode bytes by the operands of their targets (R77, R78) -/

/-- The form has a register operand, with `k` in the ModRM reg field (R121). -/
def RegMemForm.takesReg (k : BitVec 3) : RegMemForm → Bool
  | .regMem _ | .mem16 _ => false
  | .rmSreg _ => !k.getLsbD 2
  | .rmRegD _ | .rmReg _ | .rm _ | .rm16 _ | .shift _ => true

/-- The group's row has a register operand. -/
def GroupRow.takesReg (k : BitVec 3) : GroupRow → Bool
  | .regMemToFromReg f   => f.takesReg k
  | .immediateToRegMem _ => true

/-- The target has a ModRM byte and a register operand, with `k` in the reg field. -/
def Target.takesReg (k : BitVec 3) : Target → Bool
  | .group g => (groupTable g k).any (·.takesReg k)
  | .regMemToFromReg f => f.takesReg k
  | .refuse | .prefixByte _ | .immediateToAccumulator _ | .immediateToRegister _ | .shortJump _ | .nearProcLabel _
  | .farProcLabel _ | .registerOnly _ | .segmentRegisterOnly _ | .noOperand _ | .other _ => false

/-- The target has neither a ModRM byte nor a memory address. -/
def Target.lacksMem : Target → Bool
  | .refuse | .prefixByte _ | .group _ | .regMemToFromReg _ | .immediateToAccumulator (.accMem _) => false
  | .immediateToAccumulator (.accImm _) | .immediateToAccumulator (.port8 _) | .immediateToRegister _ | .shortJump _
  | .nearProcLabel _ | .farProcLabel _ | .registerOnly _ | .segmentRegisterOnly _ | .noOperand _ | .other _ => true

/-- What the lists of Safety.lean say of the target of opcode byte `op`. -/
abbrev Target.FitsLists (op : Byte) (t : Target) : Prop :=
  if takesModRM op then
    ∀ k, isReservedReg op k = false → isMemoryOnly op k = false → isBadSreg op k = false → t.takesReg k = true
  else op ∉ accMemBytes → t.lacksMem = true

/-- `Entry.hits` on numbers, which evaluates faster. -/
theorem Entry.hits_eq_beq (e : Entry) (b : Byte) :
    e.hits b = Nat.beq (Nat.land b.toNat e.mask.toNat) e.pat.toNat := by
  rw [Bool.eq_iff_iff, Nat.beq_eq, Entry.hits, beq_iff_eq, ← BitVec.toNat_inj]
  rfl

/-- The 256 opcode bytes: those without a target are refused, and the lists fit the target of every other that is no prefix. -/
theorem dispatch_fits (op : Byte) : (dispatch op).elim (op ∈ refusedBytes)
    fun t => op ∉ refusedBytes ∧ (op ∉ prefixBytes → t.FitsLists op) := by
  have hall : ∀ op : Byte, (dispatch op).elim (decide (op ∈ refusedBytes))
      (fun t => decide (op ∉ refusedBytes ∧ (op ∉ prefixBytes → t.FitsLists op))) = true := by
    simp only [dispatch, firstEntry, Entry.hits_eq_beq]
    decide
  have hop := hall op
  cases hd : dispatch op with
  | none => simpa only [hd, Option.elim, decide_eq_true_eq] using hop
  | some t => simpa only [hd, Option.elim, decide_eq_true_eq] using hop

theorem dispatch_eq_none_iff (op : Byte) : dispatch op = none ↔ op ∈ refusedBytes := by
  have hfits := dispatch_fits op
  cases hd : dispatch op with
  | none =>
    rw [hd] at hfits
    exact iff_of_true rfl hfits
  | some t =>
    rw [hd] at hfits
    exact iff_of_false nofun hfits.1

theorem exists_fitting_target {op : Byte} (hr : op ∉ refusedBytes) (hp : op ∉ prefixBytes) :
    ∃ t, dispatch op = some t ∧ t.FitsLists op := by
  have hfits := dispatch_fits op
  cases hd : dispatch op with
  | none => exact absurd ((dispatch_eq_none_iff op).1 hd) hr
  | some t =>
    rw [hd] at hfits
    exact ⟨t, rfl, hfits.2 hp⟩

/-- No prefix byte is refused (R80, R83). -/
theorem refusedBytes_not_prefix : ∀ b ∈ refusedBytes, isPrefixByte b = false := by decide

/-- Settles O16: the bytes without a target are the list's. -/
theorem refusedOpcodes : Obligations.RefusedOpcodes := by
  refine ⟨rfl, fun b => ?_, fun p b buf tail start hb hbuf => ?_⟩
  · rw [Option.isNone_iff_eq_none, dispatch_eq_none_iff]
  · exact decodeOne_of_dispatch_none hbuf (refusedBytes_not_prefix b hb) ((dispatch_eq_none_iff b).2 hb)

/-! ## The segment check against the latch (R122) -/

/-- The routine of target `t`, for opcode byte `op` and the bytes `r` behind it, refuses every segment latch. -/
def RefusesLatch (t : Target) (op : Byte) (r : List Byte) : Prop :=
  ∀ (o st pos : Nat) (l : SegLatch),
    routine t ⟨op, o⟩ (some l) ⟨st, pos, r⟩ = .error (invalidField st l.off l.byte .segmentOverride)

theorem refusesLatch_of_lacksMem {t : Target} (h : t.lacksMem = true) (op : Byte) (r : List Byte) : RefusesLatch t op r := by
  intro o st pos l
  cases t with
  | refuse | prefixByte _ | group _ | regMemToFromReg _ => cases h
  | immediateToAccumulator f =>
    cases f with
    | accMem mk => cases h
    | accImm mk | port8 mk => rfl
  | noOperand f => cases f <;> rfl
  | other f => cases f <;> rfl
  | _ => rfl

/-- A form with a register operand makes the segment check before it reads another byte. -/
theorem regMemRoutine_latch_reg {f : RegMemForm} {m : ModRM} (hf : f.takesReg m.reg = true) (hm : m.isReg = true)
    (b : Byte) (l : SegLatch) (c : Cursor) :
    regMemRoutine f m b (some l) c = .error (invalidField c.start l.off l.byte .segmentOverride) := by
  cases f with
  | regMem mk | mem16 mk => cases hf
  | rmSreg mk =>
    have hk : m.reg.getLsbD 2 = false := by simpa [RegMemForm.takesReg] using hf
    simp only [regMemRoutine, hk, hm]
    rfl
  | _ => simp only [regMemRoutine, hm]; rfl

theorem groupRoutine_latch_reg {row : GroupRow} {m : ModRM} (hrow : row.takesReg m.reg = true) (hm : m.isReg = true)
    (b : Byte) (l : SegLatch) (c : Cursor) :
    groupRoutine row m b (some l) c = .error (invalidField c.start l.off l.byte .segmentOverride) := by
  cases row with
  | regMemToFromReg f => exact regMemRoutine_latch_reg hrow hm b l c
  | immediateToRegMem f => cases f <;> simp only [groupRoutine, immRegMemRoutine, hm] <;> rfl

theorem refusesLatch_of_takesReg {t : Target} {k : BitVec 3} (h : t.takesReg k = true) (op : Byte) (rm : BitVec 3)
    (r : List Byte) : RefusesLatch t op (modRMByte 3 k rm :: r) := by
  intro o st pos l
  cases t with
  | group g =>
    obtain ⟨row, hg, hrow⟩ := (Option.any_eq_true ..).1 h
    rw [routine_group_row (by rwa [ModRM.reg_modRMByte])]
    exact groupRoutine_latch_reg (by rwa [ModRM.reg_modRMByte]) (ModRM.isReg_modRMByte k rm pos) op l _
  | regMemToFromReg f =>
    rw [routine_regMem_cons]
    exact regMemRoutine_latch_reg (by rwa [ModRM.reg_modRMByte]) (ModRM.isReg_modRMByte k rm pos) op l _
  | _ => cases h

theorem refusesLatch_of_lacksMemory {op : Byte} {rest : List Byte} (h : LacksMemory op rest) :
    isPrefixByte op = false ∧ ∃ t, dispatch op = some t ∧ RefusesLatch t op rest := by
  obtain ⟨hp, hr, hmem⟩ := h
  obtain ⟨t, hd, hfits⟩ := exists_fitting_target hr hp
  refine ⟨by rw [← Bool.not_eq_true, isPrefixByte_iff_mem]; exact hp, t, hd, ?_⟩
  obtain ⟨hm, hacc⟩ | ⟨hm, k, rm, r, rfl, hres, hmo, hsr⟩ := hmem
  · rw [Target.FitsLists, hm] at hfits
    exact refusesLatch_of_lacksMem (hfits hacc) op rest
  · rw [Target.FitsLists, hm] at hfits
    exact refusesLatch_of_takesReg (hfits k hres hmo hsr) op rm r

/-- The segment check refuses a latch, or it changes nothing. -/
theorem segCheck_latch_cases (c : Cursor) (l : SegLatch) (hm : Bool) (k : Unit → Except ErrorRecord (Instr × Cursor)) :
    (segCheck c (some l) hm >>= k) = .error (invalidField c.start l.off l.byte .segmentOverride) ∨
    (segCheck c (some l) hm >>= k) = (segCheck c none hm >>= k) := by
  cases hm with
  | false => exact .inl rfl
  | true => exact .inr rfl

theorem regMemRoutine_latch_cases (f : RegMemForm) (m : ModRM) (b : Byte) (l : SegLatch) (c : Cursor) :
    regMemRoutine f m b (some l) c = .error (invalidField c.start l.off l.byte .segmentOverride) ∨
    regMemRoutine f m b (some l) c = regMemRoutine f m b none c := by
  cases f with
  | regMem mk | mem16 mk | rmSreg mk =>
    simp only [regMemRoutine]
    split
    · exact .inr rfl
    · exact segCheck_latch_cases ..
  | _ => exact segCheck_latch_cases ..

theorem routine_latch_cases (t : Target) (x : Located) (l : SegLatch) (c : Cursor) :
    routine t x (some l) c = .error (invalidField c.start l.off l.byte .segmentOverride) ∨
    routine t x (some l) c = routine t x none c := by
  obtain ⟨st, pos, r⟩ := c
  cases t with
  | refuse | prefixByte _ => exact .inr rfl
  | group g =>
    cases r with
    | nil => exact .inr rfl
    | cons m r =>
      cases hg : groupTable g (ModRM.of m pos).reg with
      | none => rw [routine_group_reserved hg, routine_group_reserved hg]; exact .inr rfl
      | some row =>
        rw [routine_group_row hg, routine_group_row hg]
        rcases row with f | ⟨mk⟩ | ⟨mk⟩
        · exact regMemRoutine_latch_cases f _ _ l _
        · exact segCheck_latch_cases ..
        · exact segCheck_latch_cases ..
  | regMemToFromReg f =>
    cases r with
    | nil => exact .inr rfl
    | cons m r => exact regMemRoutine_latch_cases f _ _ l _
  | immediateToAccumulator f => cases f <;> exact segCheck_latch_cases ..
  | noOperand f => cases f <;> exact segCheck_latch_cases ..
  | other f => cases f <;> exact segCheck_latch_cases ..
  | _ => exact segCheck_latch_cases ..

/-- The routine of an instruction without a memory operand refuses a latch: with it the routine would answer the instruction,
and a routine that answers under a latch has read a memory operand. -/
theorem refusesLatch_of_plain {i : Instr} (hwf : WellFormed i) (hp : i.isPrefixed = false) (hm : i.hasMem = false)
    (tail : List Byte) : ∃ op r t, encode i = op :: r ∧ isPrefixByte op = false ∧ dispatch op = some t ∧
      RefusesLatch t op (r ++ tail) := by
  obtain ⟨op, r, t, hencode, hnp, hd, -, hread⟩ := readsBack_of_plain i hwf hp
  refine ⟨op, r, t, hencode, hnp, hd, fun o st pos l => ?_⟩
  obtain herr | hsame := routine_latch_cases t ⟨op, o⟩ l ⟨st, pos, r ++ tail⟩
  · exact herr
  · rw [hread none st o pos tail nofun] at hsame
    obtain ⟨-, -, hlatch, -⟩ := routine_reads (dispatch_made op t hd) hsame
    simp [hlatch rfl] at hm

/-! ## The error at the prefix -/

/-- The latch of a segment prefix holds its byte and where it stands (R28). -/
theorem BodyPrefix.latch_seg (sr : Sreg) : ∃ b, (BodyPrefix.mk false (some sr)).bytes = [b] ∧
    ∀ lock st, (BodyPrefix.mk lock (some sr)).latch st = some ⟨sr, st + (if lock then 1 else 0), b⟩ := by
  cases sr <;> exact ⟨_, rfl, fun _ _ => rfl⟩

theorem decodeOne_of_refusesLatch {t : Target} {op : Byte} {rest buf : List Byte} {lock : Bool} {sr : Sreg} {start : Nat}
    (hnp : isPrefixByte op = false) (hd : dispatch op = some t) (h : RefusesLatch t op rest)
    (hbuf : buf.drop start = (BodyPrefix.mk lock (some sr)).bytes ++ op :: rest) :
    ∃ b, (BodyPrefix.mk false (some sr)).bytes = [b] ∧ decodeOne buf start =
      .error ⟨.invalidField, start, start + (if lock then 1 else 0), some b, some .segmentOverride, none⟩ := by
  obtain ⟨b, hb, hlatch⟩ := BodyPrefix.latch_seg sr
  exact ⟨b, hb, decodeOne_of_routine_error hbuf hnp hd (by rw [hlatch]; exact h ..)⟩

/-- Settles O28: the routine of the opcode byte refuses the latch. -/
theorem segmentOverrideNeedsMemory : Obligations.SegmentOverrideNeedsMemory := by
  refine ⟨fun i lock sr buf tail start hwf hp hm hbuf => ?_, fun op rest lock sr buf start hlacks hbuf => ?_⟩
  · obtain ⟨op, r, t, hencode, hnp, hd, hrefuses⟩ := refusesLatch_of_plain hwf hp hm tail
    rw [hencode, List.cons_append] at hbuf
    exact decodeOne_of_refusesLatch hnp hd hrefuses hbuf
  · obtain ⟨hnp, t, hd, hrefuses⟩ := refusesLatch_of_lacksMemory hlacks
    exact decodeOne_of_refusesLatch hnp hd hrefuses hbuf

end Sys2Proof
end

section
/-! Lengths (R67): the displacement by the ModRM byte, the data by the opcode byte, the bounds: O14. -/

namespace Sys2Proof

open Machine

/-! ## The displacement by `mod` and `rm` -/

theorem dispLenOf_modRMByte (mod : BitVec 2) (k rm : BitVec 3) (o : Nat) :
    dispLenOf (ModRM.of (modRMByte mod k rm) o).mod (ModRM.of (modRMByte mod k rm) o).rm = dispLenOf mod rm := by
  rw [ModRM.of_modRMByte]

/-- A memory operand is encoded with the `mod` and `rm` of its displacement's length. -/
theorem Mem.bytes_eq_modRMByte_cons (x : Mem) (k : BitVec 3) (hwf : x.wf = true) :
    ∃ mod rm r, x.bytes k = modRMByte mod k rm :: r ∧ x.dispLen = dispLenOf mod rm := by
  cases x with
  | direct a => exact ⟨_, _, _, rfl, rfl⟩
  | base e =>
    refine ⟨_, _, _, rfl, ?_⟩
    cases e with
    | bp => cases hwf
    | _ => rfl
  | disp8 e v => exact ⟨_, _, _, rfl, by simp [dispLenOf, Mem.dispLen]⟩
  | disp16 e v => exact ⟨_, _, _, rfl, by simp [dispLenOf, Mem.dispLen]⟩

theorem Rm.bytes_eq_modRMByte_cons (x : Rm) (k : BitVec 3) (hwf : x.wf = true) :
    ∃ mod rm r, x.bytes k = modRMByte mod k rm :: r ∧ x.dispLen = dispLenOf mod rm := by
  cases x with
  | reg rm => exact ⟨3, rm, [], rfl, rfl⟩
  | mem m => exact m.bytes_eq_modRMByte_cons k hwf

theorem Rm.length_of_bytes_eq_cons {x : Rm} {k : BitVec 3} {m : Byte} {r : List Byte} (he : x.bytes k = m :: r) :
    r.length = x.dispLen := by
  have hlen := x.length_bytes k
  rw [he, List.length_cons] at hlen
  omega

theorem Rm.modRM_of_bytes_eq_cons {x : Rm} {k : BitVec 3} {m : Byte} {r : List Byte} (hwf : x.wf = true)
    (he : x.bytes k = m :: r) : r.length = dispLenOf (ModRM.of m 0).mod (ModRM.of m 0).rm ∧ r.length = x.dispLen ∧
      (ModRM.of m 0).reg = k := by
  have hlen := Rm.length_of_bytes_eq_cons he
  obtain ⟨mod, rm, r', hbytes, hdisp⟩ := x.bytes_eq_modRMByte_cons k hwf
  obtain ⟨rfl, -⟩ := List.cons.inj (he.symm.trans hbytes)
  exact ⟨by rw [hlen, hdisp, dispLenOf_modRMByte], hlen, ModRM.reg_modRMByte ..⟩

/-! ## The data by the fields of the opcode byte -/

theorem ImmW.dataLen_eq (im : ImmW) : im.dataLen = if im.width = .byte then 1 else 2 := by cases im <;> rfl

theorem ImmSW.dataLen_eq (im : ImmSW) : im.dataLen = if im.width = .byte ∨ im.sBit = true then 1 else 2 := by
  cases im <;> simp [ImmSW.dataLen, ImmSW.width, ImmSW.sBit]

theorem fieldW_append_width (op : BitVec 7) (w : Width) : fieldW (op ++ w.bits : BitVec 8) = w := by
  cases w <;> revert op <;> decide

theorem fields_append_swBits (im : ImmSW) : fieldW (0b100000#6 ++ im.swBits : BitVec 8) = im.width ∧
    fieldS (0b100000#6 ++ im.swBits : BitVec 8) = im.sBit := by
  rcases im with ⟨s, v⟩ | v | v <;> simp only [ImmSW.swBits, ImmSW.width, ImmSW.sBit]
  · revert s; decide
  · decide
  · decide

/-- Form ACC_IMM. -/
theorem length_accImm {mk : ImmW → Instr} {op : BitVec 7}
    (henc : ∀ im, encode (mk im) = (op ++ im.width.bits : Byte) :: im.bytes) (im : ImmW) (b : Byte) (r : List Byte) (h : encode (mk im) = b :: r) :
    1 + r.length = if fieldW b = .byte then 2 else 3 := by
  obtain ⟨rfl, rfl⟩ := List.cons.inj ((henc im).symm.trans h)
  rw [fieldW_append_width, ImmW.length_bytes, ImmW.dataLen_eq]
  split <;> rfl

/-- Form GRP_RM_IMM_W. -/
theorem length_rmImmW {mk : Rm → ImmW → Instr} {op : BitVec 7} {k : BitVec 3}
    (henc : ∀ x im, encode (mk x im) = (op ++ im.width.bits : Byte) :: (x.bytes k ++ im.bytes))
    (x : Rm) (im : ImmW) (b : Byte) (r : List Byte) (h : encode (mk x im) = b :: r) :
    1 + r.length = 2 + x.dispLen + (if fieldW b = .byte then 1 else 2) := by
  obtain ⟨rfl, rfl⟩ := List.cons.inj ((henc x im).symm.trans h)
  rw [fieldW_append_width, ← ImmW.dataLen_eq, ← Rm.length_cons_immW x k, Nat.add_comm]

/-- Form GRP_RM_IMM_SW. -/
theorem length_rmImmSW {mk : Rm → ImmSW → Instr} {k : BitVec 3}
    (henc : ∀ x im, encode (mk x im) = (0b100000#6 ++ im.swBits : Byte) :: (x.bytes k ++ im.bytes))
    (x : Rm) (im : ImmSW) (b : Byte) (r : List Byte) (h : encode (mk x im) = b :: r) :
    1 + r.length = 2 + x.dispLen + (if fieldW b = .byte ∨ fieldS b = true then 1 else 2) := by
  obtain ⟨rfl, rfl⟩ := List.cons.inj ((henc x im).symm.trans h)
  obtain ⟨hw, hs⟩ := fields_append_swBits im
  rw [hw, hs, ← ImmSW.dataLen_eq, ← Rm.length_cons_immSW x k, Nat.add_comm]

/-- Form REG_IMM. -/
theorem length_regImm (ri : RegImm) (b : Byte) (r : List Byte) (h : encode (.movRegImm ri) = b :: r) :
    1 + r.length = if b.getLsbD 3 = false then 2 else 3 := by
  have hbit (top : BitVec 1) (r : RegField) : (0b1011#4 ++ (top ++ r) : Byte).getLsbD 3 = top.getLsbD 0 := by
    revert top r; decide
  cases ri <;> obtain ⟨rfl, rfl⟩ := List.cons.inj h <;> simp only [RegImm.opBits, hbit] <;> rfl

/-! ## The bounds -/

theorem Mem.dispLen_le_two (m : Mem) : m.dispLen ≤ 2 := by cases m <;> simp [Mem.dispLen]

theorem Rm.dispLen_le_two (x : Rm) : x.dispLen ≤ 2 := by
  cases x with
  | reg r => exact Nat.zero_le 2
  | mem m => exact m.dispLen_le_two

theorem ImmW.dataLen_le_two (im : ImmW) : im.dataLen ≤ 2 := by cases im <;> simp [ImmW.dataLen]

theorem ImmSW.dataLen_le_two (im : ImmSW) : im.dataLen ≤ 2 := by cases im <;> simp [ImmSW.dataLen]

theorem RegImm.len_le_three (ri : RegImm) : ri.len ≤ 3 := by cases ri <;> simp [RegImm.len]

/-- Without prefixes the longest form is GRP_RM_IMM with a 16-bit displacement and a 16-bit immediate. -/
theorem length_le_six_of_plain {i : Instr} (hp : i.isPrefixed = false) : i.length ≤ 6 := by
  have hrm (x : Rm) : 2 + x.dispLen ≤ 6 := by have := x.dispLen_le_two; omega
  have hmem (m : Mem) : 2 + m.dispLen ≤ 6 := by have := m.dispLen_le_two; omega
  have himmW (x : Rm) (im : ImmW) : 2 + x.dispLen + im.dataLen ≤ 6 := by
    have := x.dispLen_le_two; have := im.dataLen_le_two; omega
  have himmSW (x : Rm) (im : ImmSW) : 2 + x.dispLen + im.dataLen ≤ 6 := by
    have := x.dispLen_le_two; have := im.dataLen_le_two; omega
  have hacc (im : ImmW) : 1 + im.dataLen ≤ 6 := by have := im.dataLen_le_two; omega
  cases i with
  | lock _ | seg _ _ | rep _ | repne _ => cases hp
  | movRmReg _ _ _ x | addRmReg _ _ _ x | adcRmReg _ _ _ x | sbbRmReg _ _ _ x | subRmReg _ _ _ x | cmpRmReg _ _ _ x
  | orRmReg _ _ _ x | andRmReg _ _ _ x | xorRmReg _ _ _ x | xchgRmReg _ _ x | testRmReg _ _ x | movRmSreg _ x
  | movSregRm _ x | incRm _ x | decRm _ x | neg _ x | mul _ x | imul _ x | div _ x | idiv _ x | not _ x | pushRm x
  | popRm x | callRm x | jmpRm x | rol _ _ x | ror _ _ x | rcl _ _ x | rcr _ _ x | shl _ _ x | shr _ _ x
  | sar _ _ x => exact hrm x
  | lea _ m | lds _ m | les _ m | callFarMem m | jmpFarMem m => exact hmem m
  | addRmImm x im | adcRmImm x im | sbbRmImm x im | subRmImm x im | cmpRmImm x im | orRmImm x im | andRmImm x im
  | xorRmImm x im => exact himmSW x im
  | movRmImm x im | testRmImm x im => exact himmW x im
  | addAccImm im | adcAccImm im | sbbAccImm im | subAccImm im | cmpAccImm im | orAccImm im | andAccImm im | xorAccImm im
  | testAccImm im => exact hacc im
  | movRegImm ri => exact ri.len_le_three.trans (by decide)
  | _ => exact of_decide_eq_true rfl

theorem length_of_string {i : Instr} (h : i.isStringOp = true) : i.length = 1 := by
  cases i with
  | movs _ | cmps _ | scas _ | lods _ | stos _ => rfl
  | _ => cases h

theorem BodyPrefix.count_le_two (p : BodyPrefix) : p.count ≤ 2 := by
  rcases p with ⟨_ | _, _ | _⟩ <;> simp [BodyPrefix.count]

/-- LOCK and a segment prefix stand in front of 6 bytes at most, LOCK and a repeat prefix in front of one. -/
theorem length_le_eight {i : Instr} (hwf : WellFormed i) : i.length ≤ 8 := by
  obtain ⟨p, j, -, hplain, -⟩ | ⟨lock, k, j, -, hstring⟩ := (wf_iff_derived i).1 hwf
  · have hcount := p.count_le_two
    have hbody := length_le_six_of_plain hplain
    rw [BodyPrefix.length_wrap]
    omega
  · have hcount := (BodyPrefix.mk lock none).count_le_two
    rw [BodyPrefix.length_wrap, RepKind.length_wrap, length_of_string hstring]
    omega

/-- Settles O14: each form's length is that of the term (`length_encode`); where the data's length depends on the opcode byte,
its fields are the immediate's. -/
theorem lengthByForm : Obligations.LengthByForm := by
  unfold Obligations.LengthByForm
  simp only [List.forall_mem_cons, List.not_mem_nil, false_imp_iff, implies_true, and_true]
  refine ⟨fun _ _ _ _ => Rm.modRM_of_bytes_eq_cons, ?_, ?_, ?_, ?_, ?_, ?_, ?_, ?_, ?immSW, ?immW, ?accImm, ?_, length_regImm,
    ?_, ?_, ?_, ?_, ?_, ?_, ?_, ?_, ?_, ?prefixed, fun i hwf => ?bounds, ?longest⟩
  case immSW => and_intros <;> exact length_rmImmSW fun _ _ => rfl
  case immW => and_intros <;> exact length_rmImmW fun _ _ => rfl
  case accImm => and_intros <;> exact length_accImm fun _ => rfl
  case prefixed =>
    simp only [length_encode]
    exact fun _ _ => ⟨rfl, rfl, rfl, rfl⟩
  case bounds =>
    rw [length_encode]
    exact ⟨length_pos i, length_le_eight hwf⟩
  case longest => exact ⟨.lock (.seg .es (.addRmImm (.mem (.disp16 .bx 0)) (.imm16 0))), rfl, rfl⟩
  all_goals
    simp only [length_encode]
    and_intros <;> intros <;> rfl

end Sys2Proof
end

section
/-! The lines of the short branches and of the string instructions (R133, R149, R157), and the name tables (R70 to R73): O42, O48,
O52. -/

namespace Sys2Proof

open Machine

theorem BodyPrefix.count_lock (lock : Bool) : (BodyPrefix.mk lock none).count = if lock then 1 else 0 := by
  cases lock <;> rfl

/-! ## Form REL8 with and without LOCK (R149) -/

theorem shortText_eq (n : Int) :
    shortText n = if 0 ≤ n then "$+" ++ dec n.toNat else "$-" ++ dec (-n).toNat := by
  rw [shortText, ← ite_not]
  simp only [Int.not_lt]

/-- The line of a short branch, with or without LOCK: the displacement counts from behind the instruction (R133). -/
theorem shortBranch_exec {i : Instr} {name : String} {disp : Byte} (hp : i.isPrefixed = false) (hwf : WellFormed i)
    (hlen : i.length = 2) (hrow : ∀ L, rowOf i L = ⟨name, opsRel8 disp L⟩) (lock : Bool) (s : State) :
    exec (if lock then .lock i else i) s = .next (s.emit
      ((if lock then "LOCK " else "") ++ name ++ " " ++
        (if 0 ≤ disp.toInt + (if lock then 3 else 2) then "$+" ++ dec (disp.toInt + (if lock then 3 else 2)).toNat
         else "$-" ++ dec (-(disp.toInt + (if lock then 3 else 2))).toNat))
      (s.cursor + (if lock then 3 else 2))) := by
  have hcount : (BodyPrefix.mk lock none).count + 2 = if lock then 3 else 2 := by cases lock <;> rfl
  have htarget : shortTarget disp ⟨lock, none, none, s.cursor, s.cursor + (if lock then 3 else 2), s.loadBase⟩ =
      disp.toInt + (if lock then 3 else 2) := by
    cases lock <;> simp [shortTarget]
  rw [ite_lock_eq_wrap, exec_wrap _ _ _ (BodyPrefix.wf_wrap _ hwf hp (by simp)) hp, hrow, hlen, hcount, opsRel8, opsText_one,
    Operand.text, htarget, shortText_eq, BodyPrefix.lead, ← String.append_assoc]

theorem shortDisp_bounds (disp : Byte) : -126 ≤ disp.toInt + 2 ∧ disp.toInt + 2 ≤ 129 := by
  have hlo := BitVec.le_toInt disp
  have hhi := BitVec.toInt_lt (x := disp)
  omega

/-- Settles O42: every row is of form REL8. -/
theorem shortBranchRows : Obligations.ShortBranchRows := by
  unfold Obligations.ShortBranchRows
  simp only [List.forall_mem_cons, List.not_mem_nil, false_imp_iff, implies_true, and_true]
  and_intros <;>
    exact fun lock disp s => ⟨shortBranch_exec rfl rfl rfl (fun _ => rfl) lock s, shortDisp_bounds disp⟩

/-! ## String instructions (R157) -/

theorem strSuffix_eq (w : Width) : strSuffix w = if w = .word then "W" else "B" := by cases w <;> rfl

/-- The line of a bare string instruction, with or without LOCK. -/
theorem string_exec {i : Instr} {m : String} (hs : i.isStringOp = true) (hwf : WellFormed i)
    (hrow : ∀ L, rowOf i L = ⟨m, []⟩) (lock : Bool) (s : State) :
    exec (if lock then .lock i else i) s =
      .next (s.emit ((if lock then "LOCK " else "") ++ m) (s.cursor + (if lock then 1 else 0) + 1)) := by
  have hp := i.isPrefixed_of_string hs
  rw [ite_lock_eq_wrap, exec_wrap _ _ _ (BodyPrefix.wf_wrap _ hwf hp (by simp)) hp, hrow, length_of_string hs,
    BodyPrefix.count_lock, opsText, BodyPrefix.lead, String.append_empty, Nat.add_assoc]

/-- The latches of a string instruction behind a repeat prefix, with or without LOCK (R114, R116, R117). -/
theorem latchesOf_wrap_rep (lock : Bool) (k : RepKind) {i : Instr} (hs : i.isStringOp = true) (s : State) :
    latchesOf ((BodyPrefix.mk lock none).wrap (k.wrap i)) s = ⟨lock, none, some k, s.cursor,
      s.cursor + ((BodyPrefix.mk lock none).count + (1 + i.length)), s.loadBase⟩ := by
  rw [latchesOf, BodyPrefix.length_wrap, RepKind.length_wrap]
  cases lock <;> exact Latches.ofPrefixes_rep k hs _

theorem RepKind.rowOf_wrap (k : RepKind) (i : Instr) : rowOf (k.wrap i) = rowOf i := by cases k <;> rfl

/-- The line of a string instruction behind a repeat prefix, with or without LOCK. -/
theorem repString_exec {i : Instr} {m : String} (hs : i.isStringOp = true) (hwf : WellFormed i)
    (hrow : ∀ L, rowOf i L = ⟨m, []⟩) (k : RepKind) (lock : Bool) (s : State) :
    exec (if lock then .lock (k.wrap i) else k.wrap i) s = .next (s.emit
      ((if lock then "LOCK " else "") ++ (repName k ++ " " ++ m)) (s.cursor + (if lock then 1 else 0) + 2)) := by
  have hline : lineOf ((BodyPrefix.mk lock none).wrap (k.wrap i)) s =
      (if lock then "LOCK " else "") ++ (repName k ++ " " ++ m) := by
    rw [lineOf, latchesOf_wrap_rep lock k hs, BodyPrefix.rowOf_wrap, RepKind.rowOf_wrap, hrow, render, opsText,
      String.append_empty, lineLead, String.append_assoc]
  rw [ite_lock_eq_wrap, exec_of_wf s (wf_wrap_rep lock k hwf hs), hline, BodyPrefix.length_wrap, RepKind.length_wrap,
    length_of_string hs, BodyPrefix.count_lock, Nat.add_assoc]

/-- Settles O48: every row is a string row. -/
theorem stringRows : Obligations.StringRows := by
  unfold Obligations.StringRows
  simp only [List.forall_mem_cons, List.not_mem_nil, false_imp_iff, implies_true, and_true, ← strSuffix_eq,
    String.append_assoc]
  and_intros <;> exact fun lock w s => ⟨string_exec rfl rfl (fun _ => rfl) lock s,
    repString_exec rfl rfl (fun _ => rfl) .rep lock s, repString_exec rfl rfl (fun _ => rfl) .repne lock s⟩

/-! ## Tables (R70 to R73) -/

/-- No memory operand read under `mod = 00` is the base `BP` alone (R73). -/
theorem readMem_ne_base_bp {m : Byte} {o : Nat} (hm : (ModRM.of m o).mod = 0) {c c' : Cursor} {x : Mem}
    (h : readMem (ModRM.of m o) c = .ok (x, c')) : x ≠ .base .bp := by
  obtain ⟨hwf, -⟩ := readMem_reads h (by rw [ModRM.isReg, hm]; rfl)
  rintro rfl
  cases hwf

/-- Settles O52: the tables by evaluation, the base `BP` alone by what `readMem` reads. -/
theorem registerTables : Obligations.RegisterTables :=
  ⟨by decide, by decide, by decide, by decide, fun _ hm _ _ _ => readMem_ne_base_bp hm⟩

end Sys2Proof
end

section
/-! Every run ends (R171), a step depends on the buffer, the load base and the state vector alone (R23, R170), and every
instruction completes with a line without spaces at its ends (R159): O9, O11, O56, O57. -/

namespace Sys2Proof

open Machine

/-! ## The step from what is decoded (R111) -/

section
variable {s : State}

theorem step_of_end (hrun : s.status = .running) (hend : s.cursor = s.len) : step s = .next s.finish := by
  obtain ⟨-, hstep⟩ | ⟨hne, -⟩ | ⟨hne, -⟩ := step_running hrun
  · exact hstep
  all_goals exact absurd hend hne

theorem step_eq_exec {i : Instr} {n : Nat} (hrun : s.status = .running) (hne : s.cursor ≠ s.len)
    (hi : decodeOne s.buf s.cursor = .ok (i, n)) : step s = exec i s := by
  obtain ⟨hnr, -⟩ | ⟨-, hend, -⟩ | ⟨-, -, j, k, hj, hstep⟩ | ⟨-, -, e, he, -⟩ := step_cases s
  · exact absurd hrun hnr
  · exact absurd hend hne
  · cases hi.symm.trans hj
    exact hstep
  · cases hi.symm.trans he

theorem step_of_decodesTo {i : Instr} (hrun : s.status = .running) (hne : s.cursor ≠ s.len) (hi : DecodesTo s i) :
    step s = .next (s.emit (lineOf i s) (s.cursor + i.length)) := by
  rw [step_eq_exec hrun hne hi.decoded, exec_of_wf s hi.wf]

theorem step_of_decodeOne_error {e : ErrorRecord} (hrun : s.status = .running) (hne : s.cursor ≠ s.len)
    (he : decodeOne s.buf s.cursor = .error e) : step s = .next (s.takeError e) := by
  obtain ⟨hend, -⟩ | ⟨-, i, hi, -⟩ | ⟨-, e', he', hstep⟩ := step_running hrun
  · exact absurd hend hne
  · cases he.symm.trans hi.decoded
  · cases he.symm.trans he'
    exact hstep

end

/-- Settles O9. -/
theorem stepRunsDecodedInstruction : Obligations.StepRunsDecodedInstruction := fun _ _ _ => step_eq_exec

/-! ## Equal inputs (R23, R170) -/

/-- Which instruction stands at the cursor depends on the buffer and the cursor alone (R170). -/
theorem DecodesTo.congr {s u : State} {i : Instr} (h : DecodesTo s i) (hbuf : s.buf = u.buf) (hcur : s.cursor = u.cursor) :
    DecodesTo u i := by
  obtain ⟨hwf, hdecoded, hle, hbytes⟩ := h
  rw [State.len] at hle
  rw [hbuf, hcur] at hdecoded hle hbytes
  exact ⟨hwf, hdecoded, hle, hbytes⟩

/-- Settles O56, one kind of step at a time. -/
theorem sameInputsSameStep : Obligations.SameInputsSameStep := by
  intro s u hbuf hbase hcur hstatus herror
  have hlen : s.len = u.len := congrArg List.length hbuf
  refine ⟨fun t h => ?_, fun r h => ?_⟩
  · cases stepTo_of_step h with
    | finish hrun hend =>
      exact ⟨u.finish, [], step_of_end (hstatus ▸ hrun) (by rw [← hcur, ← hlen, hend]), hcur.symm, rfl, herror.symm,
        (List.append_nil _).symm, (List.append_nil _).symm⟩
    | emit i hrun hne hi =>
      have hstep := step_of_decodesTo (hstatus ▸ hrun) (by rwa [← hcur, ← hlen]) (hi.congr hbuf hcur)
      rw [← lineOf_congr i hbase hcur, ← hcur] at hstep
      exact ⟨_, [lineOf i s], hstep, rfl, hstatus.symm, herror.symm, rfl, rfl⟩
    | takeError e hrun hne he =>
      exact ⟨u.takeError e, [], step_of_decodeOne_error (hstatus ▸ hrun) (by rwa [← hcur, ← hlen]) (by rwa [← hbuf, ← hcur]),
        hcur.symm, rfl, rfl, (List.append_nil _).symm, (List.append_nil _).symm⟩
  · have hnr : u.status = .done ∨ u.status = .error := by
      rw [← hstatus]
      cases hs : s.status with
      | running =>
        obtain ⟨t, hnext⟩ := runningStateSteps s hs
        cases h.symm.trans hnext
      | done => exact .inl rfl
      | error => exact .inr rfl
    cases r
    exact terminalStatesStop u hnr

/-! ## Every run ends (R171) -/

/-- A step keeps the cursor within the buffer (R24). -/
theorem StepTo.cursor_le {s t : State} (h : StepTo s t) (hs : s.cursor ≤ s.len) : t.cursor ≤ t.len := by
  cases h with
  | finish _ _ => exact hs
  | emit i _ _ hi => exact hi.le_len
  | takeError e _ _ _ => exact hs

/-- No step writes the buffer (R57). -/
theorem StepTo.len_eq {s t : State} (h : StepTo s t) : t.len = s.len := by cases h <;> rfl

theorem afterSteps_cursor_le {s : State} (hs : s.cursor ≤ s.len) (k : Nat) : (afterSteps k s).cursor ≤ s.len := by
  obtain ⟨hlen, hle⟩ := afterSteps_induction (P := fun u => u.len = s.len ∧ u.cursor ≤ u.len) ⟨rfl, hs⟩
    (fun _ _ hu hto => ⟨hto.len_eq.trans hu.1, hto.cursor_le hu.2⟩) k
  omega

/-- A run from within the buffer has ended when it has had a step for each byte left and one more: each step that leaves it
Running consumes a byte. -/
theorem done_or_error_afterSteps {s : State} (hs : s.cursor ≤ s.len) :
    (afterSteps (s.len - s.cursor + 1) s).status = .done ∨ (afterSteps (s.len - s.cursor + 1) s).status = .error := by
  have hle := afterSteps_cursor_le hs (s.len - s.cursor + 1)
  cases hstatus : (afterSteps (s.len - s.cursor + 1) s).status with
  | running =>
    have hge := le_cursor_of_running _ hstatus
    omega
  | done => exact .inl rfl
  | error => exact .inr rfl

/-- Settles O57. -/
theorem terminationBound : Obligations.TerminationBound :=
  ⟨fun _ => done_or_error_afterSteps, fun buf name base =>
    done_or_error_afterSteps (s := State.resetWith buf name base) (Nat.zero_le _)⟩

/-! ## Every instruction completes (R111, R159) -/

/-- The line of any instruction is not empty and has no space at either end (R159). -/
theorem lineOf_tight (i : Instr) (s : State) : TightText (lineOf i s) := by
  obtain ⟨hmnemonic, hops⟩ := rowOf_good i (latchesOf i s)
  exact (render_good _ _ hmnemonic hops).2

/-- Settles O11. -/
theorem instructionCompletes : Obligations.InstructionCompletes := by
  intro i s hwf
  obtain ⟨hne, hhead, hlast⟩ := lineOf_tight i s
  refine ⟨_, lineOf i s, exec_of_wf s hwf, rfl, ?_, ?_, hhead, hlast⟩
  · rw [State.emit_cursor, length_encode]
  · intro hempty
    exact hne (by rw [hempty]; rfl)

end Sys2Proof
end

section
/-! Decoding with bytes put behind the buffer (R119, R132, R386): every reader, check and routine of the decoder that does not run
out of bytes answers the same there; so a buffer that ends inside an instruction makes it run out (R169, R382): O22, O23. -/

namespace Sys2Proof

open Machine

/-! ## More bytes behind the cursor -/

/-- The cursor with the bytes `more` behind those that are left. -/
def Cursor.extend (more : List Byte) (c : Cursor) : Cursor := { c with rest := c.rest ++ more }

theorem Cursor.at_extend {buf : List Byte} {start : Nat} (h : start ≤ buf.length) (more : List Byte) :
    Cursor.at (buf ++ more) start = (Cursor.at buf start).extend more := by
  rw [Cursor.at, List.drop_append_of_le_length h]
  rfl

/-- Bytes behind those that are left change neither what `f` answers, nor an error that is not for want of bytes. -/
def Stable {α : Type} (f : Cursor → Except ErrorRecord (α × Cursor)) : Prop :=
  ∀ (c : Cursor) (more : List Byte),
    (∀ a c', f c = .ok (a, c') → f (c.extend more) = .ok (a, c'.extend more)) ∧
    (∀ e, f c = .error e → e.kind ≠ .unexpectedEndOfStream → f (c.extend more) = .error e)

section
variable {α β : Type}

theorem stable_ok {a : α} : Stable fun c => .ok (a, c) := fun _ _ => ⟨by rintro _ _ ⟨⟩; rfl, nofun⟩

/-- An error record that keeps no more of the cursor than where the instruction began. -/
theorem stable_error {e : Nat → ErrorRecord} : Stable (α := α) fun c => .error (e c.start) :=
  fun _ _ => ⟨nofun, by rintro _ ⟨⟩ _; rfl⟩

theorem stable_invalidField {off : Nat} {b : Byte} {field : FieldName} :
    Stable (α := α) fun c => .error (invalidField c.start off b field) :=
  stable_error (e := fun st => invalidField st off b field)

/-- In sequence, where the second may also depend on the offset the first began at. -/
theorem Stable.bindAt {f : Cursor → Except ErrorRecord (α × Cursor)} {k : Nat → α × Cursor → Except ErrorRecord (β × Cursor)}
    (hf : Stable f) (hk : ∀ o a, Stable fun c => k o (a, c)) : Stable fun c => f c >>= k c.pos := by
  intro c more
  obtain ⟨hok, herror⟩ := hf c more
  dsimp only
  generalize f c = r at hok herror ⊢
  cases r with
  | ok p =>
    rw [hok p.1 p.2 rfl]
    exact hk c.pos p.1 p.2 more
  | error e =>
    refine ⟨nofun, ?_⟩
    rintro _ ⟨⟩ hkind
    rw [herror e rfl hkind]
    rfl

theorem Stable.bind {f : Cursor → Except ErrorRecord (α × Cursor)} {k : α × Cursor → Except ErrorRecord (β × Cursor)}
    (hf : Stable f) (hk : ∀ a, Stable fun c => k (a, c)) : Stable fun c => f c >>= k :=
  hf.bindAt (k := fun _ => k) fun _ => hk

theorem stable_ite {p : Prop} [Decidable p] {f g : Cursor → Except ErrorRecord (α × Cursor)} (hf : Stable f)
    (hg : Stable g) : Stable fun c => if p then f c else g c := by
  by_cases h : p
  · simpa only [if_pos h] using hf
  · simpa only [if_neg h] using hg

/-! ## The cursor -/

theorem readByte_stable : Stable Cursor.readByte := by
  rintro ⟨st, o, _ | ⟨b, r⟩⟩ more
  · exact ⟨nofun, by rintro _ ⟨⟩ hkind; exact absurd rfl hkind⟩
  · exact ⟨by rintro _ _ ⟨⟩; rfl, nofun⟩

theorem readWord_stable : Stable Cursor.readWord := by
  rintro ⟨st, o, _ | ⟨lo, _ | ⟨hi, r⟩⟩⟩ more
  · exact ⟨nofun, by rintro _ ⟨⟩ hkind; exact absurd rfl hkind⟩
  · exact ⟨nofun, by rintro _ ⟨⟩ hkind; exact absurd rfl hkind⟩
  · exact ⟨by rintro _ _ ⟨⟩; rfl, nofun⟩

theorem readLocated_stable : Stable Cursor.readLocated :=
  readByte_stable.bindAt (k := fun o p => .ok (Located.mk p.1 o, p.2)) fun o b => stable_ok (a := Located.mk b o)

theorem readModRM_stable : Stable Cursor.readModRM :=
  readByte_stable.bindAt (k := fun o p => .ok (ModRM.of p.1 o, p.2)) fun o b => stable_ok (a := ModRM.of b o)

/-! ## `Prefixes()` (R113) -/

theorem lockPhase_stable : Stable lockPhase :=
  readLocated_stable.bind fun _ =>
    stable_ite (readLocated_stable.bind fun _ => stable_ite stable_invalidField stable_ok) stable_ok

theorem segPhase_stable (x : Located) : Stable (segPhase x) :=
  stable_ite (readLocated_stable.bind fun _ => stable_ite stable_invalidField stable_ok) stable_ok

theorem repPhase_stable (x : Located) : Stable (repPhase x) :=
  stable_ite (readLocated_stable.bind fun _ => stable_ite stable_ok stable_invalidField) stable_ok

theorem prefixPhase_stable : Stable prefixPhase :=
  lockPhase_stable.bind fun p => (segPhase_stable p.2).bind fun q => (repPhase_stable q.2).bind fun _ => stable_ok

/-! ## Operands (R122, R124, R129, R130) -/

theorem readMem_stable (m : ModRM) : Stable (readMem m) :=
  have hword {f : Word → Mem} : Stable fun c => c.readWord >>= fun (v, c) => .ok (f v, c) :=
    readWord_stable.bind fun _ => stable_ok
  stable_ite (stable_ite hword stable_ok) (stable_ite (readByte_stable.bind fun _ => stable_ok) hword)

theorem readRm_stable (m : ModRM) : Stable (readRm m) := stable_ite stable_ok ((readMem_stable m).bind fun _ => stable_ok)

theorem readImmW_stable (w : Width) : Stable (readImmW w) := by
  cases w
  · exact readByte_stable.bind fun _ => stable_ok
  · exact readWord_stable.bind fun _ => stable_ok

theorem readImmSW_stable (s : Bool) (w : Width) : Stable (readImmSW s w) := by
  cases w
  · exact readByte_stable.bind fun _ => stable_ok
  · cases s
    · exact readWord_stable.bind fun _ => stable_ok
    · exact readByte_stable.bind fun _ => stable_ok

/-! ## The routines (R136 to R158) -/

variable {sg : Option SegLatch}

/-- The segment check, then the rest of a routine (R122). -/
theorem segCheck_stable {f : Cursor → Except ErrorRecord (α × Cursor)} {hasMem : Bool} (hf : Stable f) :
    Stable fun c => segCheck c sg hasMem >>= fun _ => f c := by
  cases sg with
  | none => exact hf
  | some l =>
    cases hasMem with
    | true => exact hf
    | false => exact stable_invalidField

/-- The segment check and the r/m operand, then a routine's own part. -/
theorem rm_stable {m : ModRM} {k : Rm × Cursor → Except ErrorRecord (Instr × Cursor)} (hk : ∀ x, Stable fun c => k (x, c)) :
    Stable fun c => segCheck c sg (!m.isReg) >>= fun _ => readRm m c >>= k :=
  segCheck_stable ((readRm_stable m).bind hk)

/-- A check of the ModRM byte, the segment check and the memory operand (R121). -/
theorem mem_stable {m : ModRM} {f : Mem → Instr} :
    Stable fun c => if m.isReg then .error (invalidField c.start m.off m.byte .mod)
      else segCheck c sg true >>= fun _ => readMem m c >>= fun (v, c) => .ok (f v, c) :=
  stable_ite stable_invalidField (segCheck_stable ((readMem_stable m).bind fun _ => stable_ok))

theorem regMemRoutine_stable (f : RegMemForm) (m : ModRM) (b : Byte) : Stable (regMemRoutine f m b sg) := by
  cases f with
  | regMem mk => exact mem_stable
  | mem16 mk => exact mem_stable
  | rmSreg mk => exact stable_ite stable_invalidField (rm_stable fun _ => stable_ok)
  | _ => exact rm_stable fun _ => stable_ok

theorem groupRoutine_stable (row : GroupRow) (m : ModRM) (b : Byte) : Stable (groupRoutine row m b sg) := by
  rcases row with f | ⟨mk⟩ | ⟨mk⟩
  · exact regMemRoutine_stable f m b
  · exact rm_stable fun _ => (readImmSW_stable _ _).bind fun _ => stable_ok
  · exact rm_stable fun _ => (readImmW_stable _).bind fun _ => stable_ok

theorem byte_stable {f : Byte → Instr} : Stable fun c => noMem sg c fun c => c.readByte >>= fun (v, c) => .ok (f v, c) :=
  segCheck_stable (readByte_stable.bind fun _ => stable_ok)

theorem word_stable {f : Word → Instr} : Stable fun c => noMem sg c fun c => c.readWord >>= fun (v, c) => .ok (f v, c) :=
  segCheck_stable (readWord_stable.bind fun _ => stable_ok)

theorem bare_stable {i : Instr} : Stable fun c => noMem sg c fun c => .ok (i, c) := segCheck_stable stable_ok

theorem accRoutine_stable (f : AccForm) (b : Byte) : Stable (accRoutine f b sg) := by
  cases f with
  | accImm mk => exact segCheck_stable ((readImmW_stable _).bind fun _ => stable_ok)
  | accMem mk => exact segCheck_stable (readWord_stable.bind fun _ => stable_ok)
  | port8 mk => exact byte_stable

theorem regImmRoutine_stable (mk : RegImm → Instr) (b : Byte) : Stable (regImmRoutine mk b sg) := by
  unfold regImmRoutine
  cases fieldRegImmW b
  · exact byte_stable (f := fun v => mk (.r8 (fieldR b) v))
  · exact word_stable (f := fun v => mk (.r16 (fieldR b) v))

theorem otherRoutine_stable (f : OtherForm) : Stable (otherRoutine f sg) := by
  cases f with
  | imm8 mk => exact byte_stable
  | imm16 mk => exact word_stable
  | aa i => exact segCheck_stable (readLocated_stable.bind fun _ => stable_ite stable_ok stable_invalidField)

theorem routine_stable (t : Target) (x : Located) : Stable (routine t x sg) := by
  have hunknown : Stable (α := Instr) fun c => .error (unknownOpcode c.start x.off x.byte) :=
    stable_error (e := fun st => unknownOpcode st x.off x.byte)
  cases t with
  | refuse => exact hunknown
  | prefixByte sh => exact hunknown
  | group g =>
    refine readModRM_stable.bind fun m => ?_
    dsimp only
    cases groupTable g m.reg with
    | none => exact stable_invalidField
    | some row => exact groupRoutine_stable row m x.byte
  | regMemToFromReg f => exact readModRM_stable.bind fun m => regMemRoutine_stable f m x.byte
  | immediateToAccumulator f => exact accRoutine_stable f x.byte
  | immediateToRegister mk => exact regImmRoutine_stable mk x.byte
  | shortJump mk => exact byte_stable
  | nearProcLabel mk => exact word_stable
  | farProcLabel mk => exact segCheck_stable (readWord_stable.bind fun _ => readWord_stable.bind fun _ => stable_ok)
  | registerOnly mk => exact bare_stable
  | segmentRegisterOnly mk => exact bare_stable
  | noOperand f => cases f <;> exact bare_stable
  | other f => exact otherRoutine_stable f

end

/-! ## Decoding (R112) -/

theorem decodeFrom_stable : Stable decodeFrom := by
  refine prefixPhase_stable.bind fun ⟨p, x⟩ => ?_
  dsimp only
  cases dispatch x.byte with
  | none => exact stable_error (e := fun st => unknownOpcode st x.off x.byte)
  | some t => exact (routine_stable t x).bind fun i => stable_ok (a := p.wrap i)

/-- An error that is not for want of bytes is raised with more bytes behind the buffer too (R386). -/
theorem decodeOne_error_append {buf : List Byte} {start : Nat} {e : ErrorRecord} (hle : start ≤ buf.length)
    (h : decodeOne buf start = .error e) (hkind : e.kind ≠ .unexpectedEndOfStream) (more : List Byte) :
    decodeOne (buf ++ more) start = .error e := by
  have hfrom : decodeFrom (Cursor.at buf start) = .error e := by
    cases hd : decodeFrom (Cursor.at buf start) with
    | ok p => rw [decodeOne, hd] at h; cases h
    | error e' => rw [decodeOne, hd] at h; cases h; rfl
  rw [decodeOne, Cursor.at_extend hle, (decodeFrom_stable _ more).2 e hfrom hkind]
  rfl

/-- An instruction that is answered is answered on any buffer that agrees up to its end (R132, R169). -/
theorem decodeOne_ok_of_take_eq {buf buf' : List Byte} {start next : Nat} {i : Instr}
    (h : decodeOne buf start = .ok (i, next)) (htake : buf'.take next = buf.take next) :
    decodeOne buf' start = .ok (i, next) := by
  obtain ⟨hwf, rfl, hle, hbytes⟩ := decodeOne_ok h
  have hone (l : List Byte) : (l.drop start).take i.length = (l.take (start + i.length)).drop start := by
    rw [List.drop_take, Nat.add_sub_cancel_left]
  have hencode : (buf'.drop start).take i.length = encode i := by
    rw [hone, htake, ← hone, hbytes, ← length_encode, List.take_left]
  exact decodeOne_of_drop hwf (tail := (buf'.drop start).drop i.length) (by rw [← hencode, List.take_append_drop])

/-- Past the end of the buffer no byte is read. -/
theorem decodeOne_of_length_le {buf : List Byte} {start : Nat} (h : buf.length ≤ start) :
    decodeOne buf start = .error (endOfStream start start 1) := by
  rw [decodeOne, Cursor.at, List.drop_eq_nil_of_le h]
  rfl

/-- Settles O23. -/
theorem laterBytesDoNotMatter : Obligations.LaterBytesDoNotMatter := by
  intro buf more start
  refine ⟨fun i next h => ?_, fun e h hkind => ?_⟩
  · obtain ⟨-, -, hle, -⟩ := decodeOne_ok h
    exact ⟨decodeOne_ok_of_take_eq h (List.take_append_of_le_length hle),
      decodeOne_ok_of_take_eq h (by rw [List.take_take, Nat.min_self])⟩
  · obtain hle | hge := Nat.le_total start buf.length
    · exact decodeOne_error_append hle h hkind more
    · rw [decodeOne_of_length_le hge] at h
      cases h
      exact absurd rfl hkind

/-- Settles O22: were it an instruction or another error, it would be that with the missing bytes behind it, where the
instruction itself is answered. -/
theorem truncatedInstruction : Obligations.TruncatedInstruction := by
  intro i k buf start hwf hle hk hbuf
  have hwhole : decodeOne (buf ++ (encode i).drop k) start = .ok (i, start + i.length) :=
    decodeOne_of_drop hwf (tail := [])
      (by rw [List.drop_append_of_le_length hle, hbuf, List.take_append_drop, List.append_nil])
  cases h : decodeOne buf start with
  | ok p =>
    obtain ⟨j, next⟩ := p
    obtain ⟨-, -, hnext, -⟩ := decodeOne_ok h
    have hsame := decodeOne_ok_of_take_eq h (List.take_append_of_le_length (l₂ := (encode i).drop k) hnext)
    cases hwhole.symm.trans hsame
    have hlen := congrArg List.length hbuf
    rw [List.length_drop, List.length_take, Nat.min_eq_left hk.le] at hlen
    rw [length_encode] at hk
    omega
  | error e =>
    have hkind : e.kind = .unexpectedEndOfStream := by
      by_contra hne
      cases hwhole.symm.trans (decodeOne_error_append hle h hne _)
    have hplaced := decodeOne_error hle h
    have hfields := hplaced.fields
    rw [errorFieldsOk, hkind] at hfields
    have hmissing : ∃ n, e.missing = some n := by
      cases hm : e.missing with
      | none => simp [hm] at hfields
      | some n => exact ⟨n, rfl⟩
    obtain ⟨n, hn⟩ := hmissing
    have hplace := hplaced.missing_end n hn
    exact ⟨e, rfl, hkind, hplaced.start_eq, hplaced.st_le, by omega, by omega⟩

end Sys2Proof
end

section
/-! The lines of the forms with an r/m operand, and of the forms without one (R136 to R158): O29 to O41, O44 to O47. -/

namespace Sys2Proof

open Machine

/-! ## Operand texts under a `BodyPrefix` (R160, R161) -/

/-- Operand `a` has the text `t` wherever the override is that of `p`. -/
def HasText (p : BodyPrefix) (a : Latches → Operand) (t : String) : Prop := ∀ L : Latches, L.seg = p.seg → (a L).text = t

section
variable {p : BodyPrefix}

/-- An operand that no override reaches. -/
theorem hasText_const (o : Operand) : HasText p (fun _ => o) o.text := fun _ _ => rfl

theorem hasText_rm (x : Rm) (w : Width) : HasText p (rmOperand x w none) (rmText "" p.segText w x) :=
  fun L h => rmOperand_text x w none L p h

/-- With the qualifier `Q(w)` (R162). -/
theorem hasText_rm_sized (x : Rm) (w : Width) :
    HasText p (rmOperand x w (some (qualOf w))) (rmText (sizeText w) p.segText w x) := by
  intro L h
  rw [rmOperand_text x w _ L p h, Qual.lead_qualOf]

theorem hasText_mem (m : Mem) : HasText p (memOperand m none) (memText "" p.segText m) :=
  fun L h => memOperand_text m none L p h

/-- With the qualifier of a far transfer (R162). -/
theorem hasText_mem_far (m : Mem) : HasText p (memOperand m (some .far)) (memText "FAR " p.segText m) :=
  fun L h => memOperand_text m (some .far) L p h

/-- A direct address, as form ACC_MEM has it (R145). -/
theorem hasText_direct (a : Word) :
    HasText p (fun L => .memoryDirect a L.seg none) (p.segText ++ ("[" ++ (dec a.toNat ++ "]"))) := by
  intro L h
  have htext := hasText_mem (.direct a) L h
  rwa [memText, String.empty_append, String.append_assoc, String.append_assoc] at htext

/-! ## A line by its operands (R159) -/

variable {i : Instr} {m ta tb : String} {a b : Latches → Operand} {n : Nat}

/-- A row of one operand, behind a `BodyPrefix`. -/
theorem exec_wrap_one (ha : HasText p a ta) (hrow : ∀ L, rowOf i L = ⟨m, [a L]⟩) (hp : i.isPrefixed = false)
    (hlen : i.length = n) (hwf : WellFormed (p.wrap i)) (s : State) :
    exec (p.wrap i) s = .next (s.emit (p.lead ++ (m ++ (" " ++ ta))) (s.cursor + (p.count + n))) := by
  rw [exec_wrap p i s hwf hp, hrow, opsText_one, ha _ rfl, hlen, String.append_assoc]

/-- A row of two operands, behind a `BodyPrefix`. -/
theorem exec_wrap_two (ha : HasText p a ta) (hb : HasText p b tb) (hrow : ∀ L, rowOf i L = ⟨m, [a L, b L]⟩)
    (hp : i.isPrefixed = false) (hlen : i.length = n) (hwf : WellFormed (p.wrap i)) (s : State) :
    exec (p.wrap i) s = .next (s.emit (p.lead ++ (m ++ (" " ++ (ta ++ (", " ++ tb))))) (s.cursor + (p.count + n))) := by
  rw [exec_wrap p i s hwf hp, hrow, opsText_two, ha _ rfl, hb _ rfl, hlen, String.append_assoc, String.append_assoc]

end

/-! ## Forms with an r/m operand (R136 to R143) -/

/-- Settles O29: `d` decides which operand comes first. -/
theorem registerMemoryRows : Obligations.RegisterMemoryRows := by
  unfold Obligations.RegisterMemoryRows
  simp only [List.forall_mem_cons, List.not_mem_nil, false_imp_iff, implies_true, and_true, String.append_assoc,
    Nat.add_assoc, rmText_reg]
  and_intros <;> exact fun p d w reg x s hwf => match d with
    | .regFirst => exec_wrap_two (hasText_const (.register (regName w reg))) (hasText_rm x w) (fun _ => rfl) rfl rfl hwf s
    | .rmFirst => exec_wrap_two (hasText_rm x w) (hasText_const (.register (regName w reg))) (fun _ => rfl) rfl rfl hwf s

/-- Settles O30. -/
theorem exchangeAndTestRows : Obligations.ExchangeAndTestRows := by
  unfold Obligations.ExchangeAndTestRows
  simp only [List.forall_mem_cons, List.not_mem_nil, false_imp_iff, implies_true, and_true, String.append_assoc,
    Nat.add_assoc, rmText_reg]
  and_intros <;> exact fun p w reg x s hwf =>
    exec_wrap_two (hasText_rm x w) (hasText_const (.register (regName w reg))) (fun _ => rfl) rfl rfl hwf s

/-- Settles O31. -/
theorem loadAddressRows : Obligations.LoadAddressRows := by
  unfold Obligations.LoadAddressRows
  simp only [List.forall_mem_cons, List.not_mem_nil, false_imp_iff, implies_true, and_true, String.append_assoc, Nat.add_assoc]
  and_intros <;> exact fun p reg m s hwf =>
    exec_wrap_two (hasText_const (.register (reg16 reg))) (hasText_mem m) (fun _ => rfl) rfl rfl hwf s

/-- Settles O32. -/
theorem segmentRegisterMoves : Obligations.SegmentRegisterMoves := by
  unfold Obligations.SegmentRegisterMoves
  simp only [show "MOV " = "MOV" ++ " " from rfl, String.append_assoc, Nat.add_assoc]
  exact fun p sr x s =>
    ⟨fun hwf => exec_wrap_two (hasText_rm x .word) (hasText_const (.register (sregName sr))) (fun _ => rfl) rfl rfl hwf s,
      fun hwf => exec_wrap_two (hasText_const (.register (sregName sr))) (hasText_rm x .word) (fun _ => rfl) rfl rfl hwf s⟩

/-- Settles O33. -/
theorem arithmeticImmediateRows : Obligations.ArithmeticImmediateRows := by
  unfold Obligations.ArithmeticImmediateRows
  simp only [List.forall_mem_cons, List.not_mem_nil, false_imp_iff, implies_true, and_true, String.append_assoc, Nat.add_assoc,
    ← immSWOperand_text]
  and_intros <;> exact fun p x im s hwf =>
    exec_wrap_two (hasText_rm_sized x _) (hasText_const (immSWOperand im)) (fun _ => rfl) rfl (Nat.add_assoc ..) hwf s

/-- Settles O34. -/
theorem moveAndTestImmediateRows : Obligations.MoveAndTestImmediateRows := by
  unfold Obligations.MoveAndTestImmediateRows
  simp only [List.forall_mem_cons, List.not_mem_nil, false_imp_iff, implies_true, and_true, String.append_assoc, Nat.add_assoc,
    ← immWOperand_text]
  and_intros <;> exact fun p x im s hwf =>
    exec_wrap_two (hasText_rm_sized x _) (hasText_const (immWOperand im)) (fun _ => rfl) rfl (Nat.add_assoc ..) hwf s

/-- Settles O35: `PUSH` and `POP` have the qualifier of a word. -/
theorem unaryRows : Obligations.UnaryRows := by
  unfold Obligations.UnaryRows
  simp only [List.forall_mem_cons, List.not_mem_nil, false_imp_iff, implies_true, and_true, String.append_assoc, Nat.add_assoc]
  constructor
  · and_intros <;> exact fun p w x s hwf => exec_wrap_one (hasText_rm_sized x w) (fun _ => rfl) rfl rfl hwf s
  · and_intros <;> exact fun p x s hwf => exec_wrap_one (hasText_rm_sized x .word) (fun _ => rfl) rfl rfl hwf s

/-- Settles O36. -/
theorem indirectCallsAndJumps : Obligations.IndirectCallsAndJumps := by
  unfold Obligations.IndirectCallsAndJumps
  simp only [List.forall_mem_cons, List.not_mem_nil, false_imp_iff, implies_true, and_true, String.append_assoc, Nat.add_assoc]
  constructor
  · and_intros <;> exact fun p x s hwf => exec_wrap_one (hasText_rm x .word) (fun _ => rfl) rfl rfl hwf s
  · and_intros <;> exact fun p m s hwf => exec_wrap_one (hasText_mem_far m) (fun _ => rfl) rfl rfl hwf s

/-- Settles O37: `v` decides the count's text. -/
theorem shiftRows : Obligations.ShiftRows := by
  unfold Obligations.ShiftRows
  simp only [List.forall_mem_cons, List.not_mem_nil, false_imp_iff, implies_true, and_true, String.append_assoc, Nat.add_assoc]
  and_intros <;> exact fun p v w x s hwf => match v with
    | .one => exec_wrap_two (hasText_rm_sized x w) (hasText_const (.literal "1")) (fun _ => rfl) rfl rfl hwf s
    | .cl => exec_wrap_two (hasText_rm_sized x w) (hasText_const (.register "CL")) (fun _ => rfl) rfl rfl hwf s

/-! ## Form ACC_MEM (R145) -/

/-- Settles O39: an instruction of this form is well formed behind every `BodyPrefix`. -/
theorem accumulatorMemoryMoves : Obligations.AccumulatorMemoryMoves := by
  unfold Obligations.AccumulatorMemoryMoves
  simp only [show "MOV " = "MOV" ++ " " from rfl, String.append_assoc, Nat.add_assoc]
  intro p w a s
  have hacc : HasText p (fun _ => .register (accName w)) (accName w) := hasText_const _
  have hload : WellFormed (p.wrap (.movAccMem w a)) := p.wf_wrap rfl rfl fun _ => rfl
  have hstore : WellFormed (p.wrap (.movMemAcc w a)) := p.wf_wrap rfl rfl fun _ => rfl
  have hline := exec_wrap_two (hasText_direct a) hacc (fun _ => rfl) rfl rfl hstore s
  simp only [String.append_assoc] at hline
  exact ⟨exec_wrap_two hacc (hasText_direct a) (fun _ => rfl) rfl rfl hload s, hline⟩

/-! ## Forms without an r/m operand, with and without LOCK (R144, R146 to R158) -/

section
variable {i : Instr} {m : String} {n : Nat}

/-- An instruction whose row no latch changes, with or without LOCK. -/
theorem exec_lock {row : Row} (hrow : ∀ L, rowOf i L = row) (hp : i.isPrefixed = false) (hlen : i.length = n)
    (hwf : WellFormed i) (lock : Bool) (s : State) :
    exec (if lock then .lock i else i) s = .next (s.emit
      ((if lock then "LOCK " else "") ++ (row.mnemonic ++ opsText row.ops)) (s.cursor + ((if lock then 1 else 0) + n))) := by
  rw [ite_lock_eq_wrap, exec_wrap _ _ _ (BodyPrefix.wf_wrap _ hwf hp (by simp)) hp, hrow, hlen, BodyPrefix.count_lock,
    BodyPrefix.lead, String.append_assoc]

/-- A row without operands. -/
theorem exec_lock_bare (hrow : ∀ L, rowOf i L = ⟨m, []⟩) (hp : i.isPrefixed = false) (hlen : i.length = n)
    (hwf : WellFormed i) (lock : Bool) (s : State) :
    exec (if lock then .lock i else i) s = .next (s.emit
      ((if lock then "LOCK " else "") ++ m) (s.cursor + ((if lock then 1 else 0) + n))) := by
  rw [exec_lock hrow hp hlen hwf, opsText, String.append_empty]

/-- A row of one operand. -/
theorem exec_lock_one (a : Operand) (hrow : ∀ L, rowOf i L = ⟨m, [a]⟩) (hp : i.isPrefixed = false) (hlen : i.length = n)
    (hwf : WellFormed i) (lock : Bool) (s : State) :
    exec (if lock then .lock i else i) s = .next (s.emit
      ((if lock then "LOCK " else "") ++ (m ++ (" " ++ a.text))) (s.cursor + ((if lock then 1 else 0) + n))) := by
  rw [exec_lock hrow hp hlen hwf, opsText_one]

/-- A row of two operands. -/
theorem exec_lock_two (a b : Operand) (hrow : ∀ L, rowOf i L = ⟨m, [a, b]⟩) (hp : i.isPrefixed = false) (hlen : i.length = n)
    (hwf : WellFormed i) (lock : Bool) (s : State) :
    exec (if lock then .lock i else i) s = .next (s.emit
      ((if lock then "LOCK " else "") ++ (m ++ (" " ++ (a.text ++ (", " ++ b.text)))))
      (s.cursor + ((if lock then 1 else 0) + n))) := by
  rw [exec_lock hrow hp hlen hwf, opsText_two, String.append_assoc]

end

/-- Settles O38. -/
theorem accumulatorImmediateRows : Obligations.AccumulatorImmediateRows := by
  unfold Obligations.AccumulatorImmediateRows
  simp only [List.forall_mem_cons, List.not_mem_nil, false_imp_iff, implies_true, and_true, String.append_assoc, Nat.add_assoc,
    show " AL, " = " " ++ ("AL" ++ ", ") from rfl, show " AX, " = " " ++ ("AX" ++ ", ") from rfl]
  and_intros <;> exact fun lock s =>
    ⟨fun v => exec_lock_two (.register "AL") (immByte v) (fun _ => rfl) rfl rfl rfl lock s,
      fun v => exec_lock_two (.register "AX") (immWord v) (fun _ => rfl) rfl rfl rfl lock s⟩

/-- Settles O40. -/
theorem registerImmediateMove : Obligations.RegisterImmediateMove := by
  unfold Obligations.RegisterImmediateMove
  simp only [show "MOV " = "MOV" ++ " " from rfl, String.append_assoc, Nat.add_assoc]
  exact fun lock r s =>
    ⟨fun v => exec_lock_two (.register (reg8 r)) (immByte v) (fun _ => rfl) rfl rfl rfl lock s,
      fun v => exec_lock_two (.register (reg16 r)) (immWord v) (fun _ => rfl) rfl rfl rfl lock s⟩

/-- Settles O41: `POP CS` and `XCHG AX, AX` of this form are no instructions. -/
theorem shortRegisterRows : Obligations.ShortRegisterRows := by
  unfold Obligations.ShortRegisterRows
  simp only [List.forall_mem_cons, List.not_mem_nil, false_imp_iff, implies_true, and_true, String.append_assoc, Nat.add_assoc,
    show "XCHG AX, " = "XCHG" ++ (" " ++ ("AX" ++ ", ")) from rfl, show "PUSH " = "PUSH" ++ " " from rfl,
    show "POP " = "POP" ++ " " from rfl]
  intro lock s
  refine ⟨?_, fun r hr => ?_, fun sr => ?_, fun sr hsr => ?_⟩
  · and_intros <;> exact fun r => exec_lock_one (.register (reg16 r)) (fun _ => rfl) rfl rfl rfl lock s
  · have hwf : WellFormed (.xchgAxReg r) := decide_eq_true hr
    exact exec_lock_two (.register "AX") (.register (reg16 r)) (fun _ => rfl) rfl rfl hwf lock s
  · exact exec_lock_one (.register (sregName sr)) (fun _ => rfl) rfl rfl rfl lock s
  · have hwf : WellFormed (.popSreg sr) := decide_eq_true hsr
    exact exec_lock_one (.register (sregName sr)) (fun _ => rfl) rfl rfl hwf lock s

theorem farPtr_text (sgm off : Word) : dec sgm.toNat ++ (":" ++ dec off.toNat) = (Operand.farPtr sgm off).text :=
  (String.append_assoc ..).symm

/-- Settles O44: the encoder puts the offset first. -/
theorem farPointerRows : Obligations.FarPointerRows := by
  unfold Obligations.FarPointerRows
  simp only [List.forall_mem_cons, List.not_mem_nil, false_imp_iff, implies_true, and_true, String.append_assoc, Nat.add_assoc,
    farPtr_text]
  and_intros <;> exact fun lock off sgm s => ⟨exec_lock_one (.farPtr sgm off) (fun _ => rfl) rfl rfl rfl lock s, rfl⟩

/-- Settles O45. -/
theorem immediateOnlyRows : Obligations.ImmediateOnlyRows := by
  unfold Obligations.ImmediateOnlyRows
  simp only [show "INT " = "INT" ++ " " from rfl, show "RET " = "RET" ++ " " from rfl, show "RETF " = "RETF" ++ " " from rfl,
    String.append_assoc, Nat.add_assoc]
  exact fun lock s =>
    ⟨fun n => exec_lock_one (immByte n) (fun _ => rfl) rfl rfl rfl lock s,
      fun n => exec_lock_one (immWord n) (fun _ => rfl) rfl rfl rfl lock s,
      fun n => exec_lock_one (immWord n) (fun _ => rfl) rfl rfl rfl lock s⟩

/-- Settles O46. -/
theorem bareRows : Obligations.BareRows := by
  unfold Obligations.BareRows
  simp only [List.forall_mem_cons, List.not_mem_nil, false_imp_iff, implies_true, and_true, Nat.add_assoc]
  intro lock s
  and_intros <;> exact exec_lock_bare (fun _ => rfl) rfl rfl rfl lock s

/-- Settles O47. -/
theorem portRows : Obligations.PortRows := by
  unfold Obligations.PortRows
  simp only [show "IN " = "IN" ++ " " from rfl, show "OUT " = "OUT" ++ " " from rfl, show ", DX" = ", " ++ "DX" from rfl,
    show "OUT DX, " = "OUT" ++ (" " ++ ("DX" ++ ", ")) from rfl, String.append_assoc, Nat.add_assoc]
  exact fun lock w s =>
    ⟨fun p => exec_lock_two (.register (accName w)) (immByte p) (fun _ => rfl) rfl rfl rfl lock s,
      fun p => exec_lock_two (immByte p) (.register (accName w)) (fun _ => rfl) rfl rfl rfl lock s,
      exec_lock_two (.register (accName w)) (.register "DX") (fun _ => rfl) rfl rfl rfl lock s,
      exec_lock_two (.register "DX") (.register (accName w)) (fun _ => rfl) rfl rfl rfl lock s⟩

end Sys2Proof
end

section
/-! Operand texts (R127, R160, R161) and the listing as one string (R27, R168): O51, O53, O55. -/

namespace Sys2Proof

open Machine

/-! ## Operand texts (R160, R161) -/

theorem sdec_eq (v : Int) : sdec v = if 0 ≤ v then dec v.toNat else "-" ++ dec (-v).toNat := by
  rw [sdec, ← ite_not]
  simp only [Int.not_lt]

theorem memoryIndexed_hidden_text (e : EaBase) (v : Int) (sg : Option Sreg) (q : Option Qual) :
    (Operand.memoryIndexed e v false sg q).text = operandPre q sg ++ "[" ++ eaText e ++ "]" := by
  simp only [Operand.text, Bool.false_eq_true, if_false, String.append_empty]

theorem memoryIndexed_shown_text (e : EaBase) (v : Int) (sg : Option Sreg) (q : Option Qual) :
    (Operand.memoryIndexed e v true sg q).text = operandPre q sg ++ "[" ++ eaText e ++ dispText v ++ "]" := rfl

/-- Settles O51, one variant at a time. -/
theorem operandTexts : Obligations.OperandTexts := by
  refine ⟨fun n => ⟨rfl, rfl⟩, fun q sg => ?_, fun a q sg => rfl, fun e v q sg => ⟨memoryIndexed_hidden_text e v sg q, ?_⟩,
    fun v k => ⟨rfl, sdec_eq v⟩, shortText_eq, fun t => rfl, fun sgm off => rfl⟩
  · rcases q with _ | q <;> rcases sg with _ | sr <;> [skip; cases sr; cases q; (cases q <;> cases sr)] <;> rfl
  · rw [memoryIndexed_shown_text, dispText_eq]

/-! ## Displacements (R127) -/

/-- A displacement of any width read as a signed number. -/
theorem dispText_toInt {w : Nat} (v : BitVec w) :
    dispText v.toInt = if 2 * v.toNat < 2 ^ w then " + " ++ dec v.toNat else " - " ++ dec (2 ^ w - v.toNat) := by
  have hlt := v.isLt
  rw [dispText_eq, BitVec.toInt_eq_toNat_cond]
  by_cases h : 2 * v.toNat < 2 ^ w
  · rw [if_pos h, if_pos (by omega), if_pos h, Int.toNat_natCast]
  · rw [if_neg h, if_neg (by omega), if_neg h]
    congr 2
    omega

/-- A zero displacement is shown (R127). -/
theorem memoryIndexed_zero_text (e : EaBase) :
    (Operand.memoryIndexed e 0 true none none).text = "[" ++ eaText e ++ " + 0]" := by
  rw [memoryIndexed_shown_text, String.append_assoc]
  rfl

/-- Settles O53. -/
theorem signedDisplacements : Obligations.SignedDisplacements := by
  intro e L
  have hbyte (v : Byte) : 2 * v.toNat < 2 ^ 8 ↔ v.toNat < 128 := by omega
  have hword (v : Word) : 2 * v.toNat < 2 ^ 16 ↔ v.toNat < 32768 := by omega
  have h8 (v : Byte) := memoryIndexed_shown_text e v.toInt none none
  have h16 (v : Word) := memoryIndexed_shown_text e v.toInt none none
  simp only [dispText_toInt, hbyte] at h8
  simp only [dispText_toInt, hword] at h16
  exact ⟨h8, h16, memoryIndexed_zero_text e, memoryIndexed_zero_text e, memoryIndexed_hidden_text e 0 none none⟩

/-! ## The listing as one string (R168) -/

theorem serialise_cons (t : String) (r : List String) :
    (serialise (t :: r)).toList = t.toList ++ '\n' :: (serialise r).toList := by
  rw [serialise, String.toList_append, String.toList_append, List.append_assoc]
  rfl

/-- A plain character is ASCII and neither an LF nor a CR (R27). -/
theorem isPlainChar_iff (c : Char) : isPlainChar c = true ↔ c.toNat < 128 ∧ c ≠ '\n' ∧ c ≠ '\r' := by
  simp only [isPlainChar, Bool.and_eq_true, decide_eq_true_eq, and_assoc]

theorem lf_not_mem_of_plain {t : String} (h : PlainText t) : '\n' ∉ t.toList :=
  fun hmem => ((isPlainChar_iff _).1 (h _ hmem)).2.1 rfl

/-- The serialised lines, where each is plain: ASCII without CR, one LF for each line, and split at the LFs the lines again. -/
theorem serialise_of_plain {lines : List String} (h : ∀ t ∈ lines, PlainText t) :
    (∀ c ∈ (serialise lines).toList, c.toNat < 128 ∧ c ≠ '\r') ∧
    (serialise lines).toList.count '\n' = lines.length ∧
    (serialise lines).toList.splitOn '\n' = lines.map String.toList ++ [[]] := by
  induction lines with
  | nil => exact ⟨nofun, rfl, rfl⟩
  | cons t r ih =>
    obtain ⟨ht, hr⟩ := List.forall_mem_cons.1 h
    obtain ⟨hchars, hcount, hsplit⟩ := ih hr
    rw [serialise_cons]
    refine ⟨fun c hc => ?_, ?_, ?_⟩
    · obtain hc | hc := List.mem_append.1 hc
      · obtain ⟨hascii, -, hcr⟩ := (isPlainChar_iff c).1 (ht c hc)
        exact ⟨hascii, hcr⟩
      · obtain rfl | hc := List.mem_cons.1 hc
        · decide
        · exact hchars c hc
    · rw [List.count_append, List.count_eq_zero_of_not_mem (lf_not_mem_of_plain ht), List.count_cons_self, hcount, Nat.zero_add,
        List.length_cons]
    · rw [List.splitOn_append_cons_self_of_not_mem (lf_not_mem_of_plain ht), hsplit]
      rfl

theorem getLast?_serialise_cons (t : String) (r : List String) :
    (serialise (t :: r)).toList.getLast? = some ((serialise r).toList.getLast?.getD '\n') := by
  rw [serialise_cons, List.getLast?_append_of_ne_nil _ (List.cons_ne_nil _ _), List.getLast?_cons]

/-- What is serialised ends with an LF. -/
theorem getLast?_serialise {lines : List String} (h : lines ≠ []) : (serialise lines).toList.getLast? = some '\n' := by
  induction lines with
  | nil => exact absurd rfl h
  | cons t r ih =>
    rw [getLast?_serialise_cons]
    cases r with
    | nil => rfl
    | cons u r => rw [ih (List.cons_ne_nil u r), Option.getD_some]

/-- Settles O55: the lines are plain by the invariant, and there are at least the two header lines. -/
theorem listingSerialisation : Obligations.ListingSerialisation := by
  intro s hs
  have hplain : ∀ t ∈ s.listing, PlainText t := fun t ht => (plainText_iff t).2 (hs.lines_plain t ht)
  have hne : s.listing ≠ [] := List.ne_nil_of_length_pos (Nat.lt_of_lt_of_le Nat.two_pos hs.two_le_length)
  obtain ⟨hchars, hcount, hsplit⟩ := serialise_of_plain hplain
  exact ⟨hchars, hcount, getLast?_serialise hne, hsplit⟩

end Sys2Proof
end

section
/-! Where and how a decode error stops the block (R381 to R387): O8. -/

namespace Sys2Proof

open Machine

/-! ## The step of a decode error (R387) -/

/-- A record of the instruction at `start` says so, also past the end of the buffer, where the first read fails (R26). -/
theorem instrStart_of_decodeOne_error {buf : List Byte} {start : Nat} {e : ErrorRecord} (h : decodeOne buf start = .error e) :
    e.instrStart = start := by
  obtain hle | hge := Nat.le_total start buf.length
  · exact (decodeOne_error hle h).start_eq
  · rw [decodeOne_of_length_le hge] at h
    cases h
    rfl

/-- Settles O8: the step takes the error, which writes status and record alone. -/
theorem errorEntry : Obligations.ErrorEntry := by
  intro s e hrun hne he
  exact ⟨s.takeError e, step_of_decodeOne_error hrun hne he, rfl, rfl, rfl, instrStart_of_decodeOne_error he, rfl, rfl, rfl,
    rfl, fun _ => rfl⟩

end Sys2Proof
end

section
/-! How a reader, check or routine of the decoder fails (R120 to R122, R154, R382): for want of bytes, where it lacks the whole of
the failing read if the buffer is cut before it, or on a field it has read. -/

namespace Sys2Proof

open Machine

/-! ## Reading exactly what is used, or running out of bytes (R48, R49, R382) -/

/-- From `c` reader `f` raises `e` for want of bytes: behind the bytes `l` a read of `w` bytes finds no more than `r`, and where
the buffer is cut before that read, `f` lacks the whole of it (R382). -/
def RunsOut {α : Type} (f : Cursor → Except ErrorRecord (α × Cursor)) (c : Cursor) (e : ErrorRecord) : Prop :=
  ∃ (l r : List Byte) (w : Nat), (w = 1 ∨ w = 2) ∧ c.rest = l ++ r ∧ r.length < w ∧
    e = endOfStream c.start (c.pos + l.length) (w - r.length) ∧
    f { c with rest := l } = .error (endOfStream c.start (c.pos + l.length) w)

/-- From `c` reader `f` answers from the bytes it has read alone, and an error it raises is for want of bytes or has `P`. -/
structure FailsBy {α : Type} (P : ErrorRecord → Prop) (f : Cursor → Except ErrorRecord (α × Cursor)) (c : Cursor) :
    Prop where
  ok : ∀ a c', f c = .ok (a, c') →
    ∃ l, Cursor.Reads c l c' ∧ ∀ r, f { c with rest := l ++ r } = .ok (a, { c' with rest := r })
  error : ∀ e, f c = .error e → RunsOut f c e ∨ P e

section
variable {α β : Type} {P : ErrorRecord → Prop} {c : Cursor}

theorem failsBy_ok {a : α} : FailsBy P (fun c => .ok (a, c)) c :=
  ⟨by rintro _ _ ⟨⟩; exact ⟨[], .refl _, fun _ => rfl⟩, nofun⟩

theorem failsBy_error {e : Cursor → ErrorRecord} (h : P (e c)) : FailsBy (α := α) P (fun c => .error (e c)) c :=
  ⟨nofun, by rintro _ ⟨⟩; exact .inr h⟩

theorem FailsBy.mono {Q : ErrorRecord → Prop} {f : Cursor → Except ErrorRecord (α × Cursor)} (h : FailsBy P f c)
    (hPQ : ∀ e, P e → Q e) : FailsBy Q f c :=
  ⟨h.ok, fun e he => (h.error e he).imp_right (hPQ e)⟩

/-- In sequence, where the second may also depend on the offset the first began at. -/
theorem FailsBy.bindAt {f : Cursor → Except ErrorRecord (α × Cursor)} {k : Nat → α × Cursor → Except ErrorRecord (β × Cursor)}
    (hf : FailsBy P f c) (hk : ∀ a c', f c = .ok (a, c') → FailsBy P (fun d => k c.pos (a, d)) c') :
    FailsBy P (fun c => f c >>= k c.pos) c := by
  obtain ⟨hok, herror⟩ := hf
  cases hfc : f c with
  | error e =>
    refine ⟨fun b c'' h => ?_, fun e' h => ?_⟩ <;> simp only [hfc] at h <;> cases h
    refine (herror e hfc).imp_left ?_
    rintro ⟨l, r, w, hw, hrest, hr, he, hcut⟩
    exact ⟨l, r, w, hw, hrest, hr, he, by simp only [hcut]; rfl⟩
  | ok p =>
    obtain ⟨a, c'⟩ := p
    obtain ⟨l, ⟨hrest, hpos, hstart⟩, hlocal⟩ := hok a c' hfc
    obtain ⟨hok', herror'⟩ := hk a c' hfc
    have hstep : ∀ r, (f { c with rest := l ++ r } >>= k c.pos) = k c.pos (a, { c' with rest := r }) := fun r => by
      rw [hlocal r]; rfl
    refine ⟨fun b c'' h => ?_, fun e h => ?_⟩
    · simp only [hfc] at h
      obtain ⟨l', hreads, hlocal'⟩ := hok' b c'' h
      refine ⟨l ++ l', Cursor.Reads.trans ⟨hrest, hpos, hstart⟩ hreads, fun r => ?_⟩
      simp only [List.append_assoc, hstep]
      exact hlocal' r
    · simp only [hfc] at h
      refine (herror' e h).imp_left ?_
      rintro ⟨l', r, w, hw, hrest', hr, rfl, hcut⟩
      refine ⟨l ++ l', r, w, hw, by rw [hrest, hrest', List.append_assoc], hr, ?_, ?_⟩
      · rw [hstart, hpos, List.length_append, Nat.add_assoc]
      · simp only [hstep, hcut]
        rw [hstart, hpos, List.length_append, Nat.add_assoc]

theorem FailsBy.bind {f : Cursor → Except ErrorRecord (α × Cursor)} {k : α × Cursor → Except ErrorRecord (β × Cursor)}
    (hf : FailsBy P f c) (hk : ∀ a c', f c = .ok (a, c') → FailsBy P (fun d => k (a, d)) c') :
    FailsBy P (fun c => f c >>= k) c :=
  hf.bindAt (k := fun _ => k) hk

theorem failsBy_ite {p : Prop} [Decidable p] {f g : Cursor → Except ErrorRecord (α × Cursor)} (hf : p → FailsBy P f c)
    (hg : ¬p → FailsBy P g c) : FailsBy P (fun c => if p then f c else g c) c := by
  by_cases h : p
  · simpa only [if_pos h] using hf h
  · simpa only [if_neg h] using hg h

/-! ## The cursor -/

theorem readByte_failsBy : FailsBy P Cursor.readByte c := by
  obtain ⟨st, o, _ | ⟨b, r⟩⟩ := c
  · refine ⟨nofun, ?_⟩
    rintro _ ⟨⟩
    exact .inl ⟨[], [], 1, .inl rfl, rfl, Nat.one_pos, rfl, rfl⟩
  · refine ⟨?_, nofun⟩
    rintro _ _ ⟨⟩
    exact ⟨[b], ⟨rfl, rfl, rfl⟩, fun _ => rfl⟩

theorem readWord_failsBy : FailsBy P Cursor.readWord c := by
  obtain ⟨st, o, _ | ⟨lo, _ | ⟨hi, r⟩⟩⟩ := c
  · refine ⟨nofun, ?_⟩
    rintro _ ⟨⟩
    exact .inl ⟨[], [], 2, .inr rfl, rfl, Nat.two_pos, rfl, rfl⟩
  · refine ⟨nofun, ?_⟩
    rintro _ ⟨⟩
    exact .inl ⟨[], [lo], 2, .inr rfl, rfl, Nat.one_lt_two, rfl, rfl⟩
  · refine ⟨?_, nofun⟩
    rintro _ _ ⟨⟩
    exact ⟨[lo, hi], ⟨rfl, rfl, rfl⟩, fun _ => rfl⟩

theorem readLocated_failsBy : FailsBy P Cursor.readLocated c :=
  readByte_failsBy.bindAt (k := fun o p => .ok (Located.mk p.1 o, p.2)) fun b _ _ => failsBy_ok (a := Located.mk b c.pos)

theorem readModRM_failsBy : FailsBy P Cursor.readModRM c :=
  readByte_failsBy.bindAt (k := fun o p => .ok (ModRM.of p.1 o, p.2)) fun b _ _ => failsBy_ok (a := ModRM.of b c.pos)

/-! ## Operands (R124, R129, R130): they fail for want of bytes alone -/

theorem readMem_failsBy {m : ModRM} : FailsBy P (readMem m) c :=
  have hword {f : Word → Mem} : FailsBy P (fun c => c.readWord >>= fun (v, c) => .ok (f v, c)) c :=
    readWord_failsBy.bind fun _ _ _ => failsBy_ok
  failsBy_ite (fun _ => failsBy_ite (fun _ => hword) fun _ => failsBy_ok)
    fun _ => failsBy_ite (fun _ => readByte_failsBy.bind fun _ _ _ => failsBy_ok) fun _ => hword

theorem readRm_failsBy {m : ModRM} : FailsBy P (readRm m) c :=
  failsBy_ite (fun _ => failsBy_ok) fun _ => readMem_failsBy.bind fun _ _ _ => failsBy_ok

theorem readImmW_failsBy {w : Width} : FailsBy P (readImmW w) c := by
  cases w
  · exact readByte_failsBy.bind fun _ _ _ => failsBy_ok
  · exact readWord_failsBy.bind fun _ _ _ => failsBy_ok

theorem readImmSW_failsBy {s : Bool} {w : Width} : FailsBy P (readImmSW s w) c := by
  cases w
  · exact readByte_failsBy.bind fun _ _ _ => failsBy_ok
  · cases s
    · exact readWord_failsBy.bind fun _ _ _ => failsBy_ok
    · exact readByte_failsBy.bind fun _ _ _ => failsBy_ok

end

/-! ## What a routine refuses (R120 to R122, R154) -/

/-- The field the form refuses with `k` in the ModRM reg field, in memory or register form (R121). -/
def RegMemForm.badField (k : BitVec 3) (isReg : Bool) : RegMemForm → Option FieldName
  | .regMem _ | .mem16 _ => if isReg then some .mod else none
  | .rmSreg _ => if k.getLsbD 2 then some .sreg else none
  | .rmRegD _ | .rmReg _ | .rm _ | .rm16 _ | .shift _ => none

/-- The field the group's row refuses. -/
def GroupRow.badField (k : BitVec 3) (isReg : Bool) : GroupRow → Option FieldName
  | .regMemToFromReg f   => f.badField k isReg
  | .immediateToRegMem _ => none

/-- The ModRM field the target refuses: a group's reserved row first (R120). -/
def Target.badField (k : BitVec 3) (isReg : Bool) : Target → Option FieldName
  | .group g => (groupTable g k).elim (some .reg) (·.badField k isReg)
  | .regMemToFromReg f => f.badField k isReg
  | .refuse | .prefixByte _ | .immediateToAccumulator _ | .immediateToRegister _ | .shortJump _ | .nearProcLabel _
  | .farProcLabel _ | .registerOnly _ | .segmentRegisterOnly _ | .noOperand _ | .other _ => none

/-- The target's routine reads a ModRM byte. -/
def Target.hasModRM : Target → Bool
  | .group _ | .regMemToFromReg _ => true
  | .refuse | .prefixByte _ | .immediateToAccumulator _ | .immediateToRegister _ | .shortJump _ | .nearProcLabel _
  | .farProcLabel _ | .registerOnly _ | .segmentRegisterOnly _ | .noOperand _ | .other _ => false

/-- The target's routine checks a base (R154). -/
def Target.hasBase : Target → Bool
  | .other (.aa _) => true
  | .other (.imm8 _) | .other (.imm16 _) | .group _ | .regMemToFromReg _ | .refuse | .prefixByte _
  | .immediateToAccumulator _ | .immediateToRegister _ | .shortJump _ | .nearProcLabel _ | .farProcLabel _
  | .registerOnly _ | .segmentRegisterOnly _ | .noOperand _ => false

/-- What is raised on ModRM byte `m` of which `bad` is refused: that field, or else the latch where there is no memory
operand (R121, R122). -/
inductive ModRMFault (bad : Option FieldName) (m : ModRM) (sg : Option SegLatch) (st : Nat) : ErrorRecord → Prop
  | field {f : FieldName} (hbad : bad = some f) : ModRMFault bad m sg st (invalidField st m.off m.byte f)
  | latch {l : SegLatch} (hbad : bad = none) (hreg : m.isReg = true) (hsg : sg = some l) :
      ModRMFault bad m sg st (invalidField st l.off l.byte .segmentOverride)

/-- What the routine of a target raises but for want of bytes. -/
inductive RoutineFault (t : Target) (sg : Option SegLatch) (c : Cursor) : ErrorRecord → Prop
  | modRM {m : Byte} {r : List Byte} {e : ErrorRecord} (ht : t.hasModRM = true) (hrest : c.rest = m :: r)
      (h : ModRMFault (t.badField (ModRM.of m c.pos).reg (ModRM.of m c.pos).isReg) (ModRM.of m c.pos) sg c.start e) :
      RoutineFault t sg c e
  | latch {l : SegLatch} (ht : t.lacksMem = true) (hsg : sg = some l) :
      RoutineFault t sg c (invalidField c.start l.off l.byte .segmentOverride)
  | base {b : Byte} {r : List Byte} (ht : t.hasBase = true) (hsg : sg = none) (hrest : c.rest = b :: r) (hb : b ≠ 0x0A) :
      RoutineFault t sg c (invalidField c.start c.pos b .aamAadBase)

section
variable {α : Type} {P : ErrorRecord → Prop} {sg : Option SegLatch} {c : Cursor}

/-- The segment check, then the rest of a routine (R122). -/
theorem segCheck_failsBy {f : Cursor → Except ErrorRecord (α × Cursor)} {hasMem : Bool}
    (hlatch : ∀ l, sg = some l → hasMem = false → P (invalidField c.start l.off l.byte .segmentOverride))
    (hf : (hasMem = false → sg = none) → FailsBy P f c) : FailsBy P (fun c => segCheck c sg hasMem >>= fun _ => f c) c := by
  cases sg with
  | none => exact hf fun _ => rfl
  | some l =>
    cases hasMem with
    | true => exact hf nofun
    | false => exact failsBy_error (e := fun c => invalidField c.start l.off l.byte .segmentOverride) (hlatch l rfl rfl)

/-- The segment check and the r/m operand, then a routine's own part. -/
theorem rm_failsBy {m : ModRM} {st : Nat} {k : Rm × Cursor → Except ErrorRecord (Instr × Cursor)} (hst : c.start = st)
    (hk : ∀ x c', FailsBy (ModRMFault none m sg st) (fun d => k (x, d)) c') :
    FailsBy (ModRMFault none m sg st) (fun c => segCheck c sg (!m.isReg) >>= fun _ => readRm m c >>= k) c :=
  segCheck_failsBy (fun _ hl hreg => hst ▸ .latch rfl (by simpa using hreg) hl)
    fun _ => readRm_failsBy.bind fun x c' _ => hk x c'

/-- The check that the operand is memory, the segment check, and the memory operand (R121). -/
theorem mem_failsBy {m : ModRM} {st : Nat} {f : Mem → Instr} (hst : c.start = st) :
    FailsBy (ModRMFault (if m.isReg then some .mod else none) m sg st)
      (fun c => if m.isReg then .error (invalidField c.start m.off m.byte .mod)
        else segCheck c sg true >>= fun _ => readMem m c >>= fun (x, c) => .ok (f x, c)) c :=
  failsBy_ite (fun h => failsBy_error (hst ▸ .field (if_pos h)))
    fun _ => segCheck_failsBy nofun fun _ => readMem_failsBy.bind fun _ _ _ => failsBy_ok

theorem regMemRoutine_failsBy (f : RegMemForm) (m : ModRM) (b : Byte) {st : Nat} (hst : c.start = st) :
    FailsBy (ModRMFault (f.badField m.reg m.isReg) m sg st) (regMemRoutine f m b sg) c := by
  cases f with
  | regMem mk => exact mem_failsBy hst
  | mem16 mk => exact mem_failsBy hst
  | rmSreg mk =>
    refine failsBy_ite (fun h => failsBy_error (hst ▸ .field (if_pos h))) fun h => ?_
    rw [RegMemForm.badField, if_neg h]
    exact rm_failsBy hst fun _ _ => failsBy_ok
  | _ => exact rm_failsBy hst fun _ _ => failsBy_ok

theorem groupRoutine_failsBy (row : GroupRow) (m : ModRM) (b : Byte) {st : Nat} (hst : c.start = st) :
    FailsBy (ModRMFault (row.badField m.reg m.isReg) m sg st) (groupRoutine row m b sg) c := by
  rcases row with f | ⟨mk⟩ | ⟨mk⟩
  · exact regMemRoutine_failsBy f m b hst
  · exact rm_failsBy hst fun _ _ => readImmSW_failsBy.bind fun _ _ _ => failsBy_ok
  · exact rm_failsBy hst fun _ _ => readImmW_failsBy.bind fun _ _ _ => failsBy_ok

/-- A ModRM byte, then the rest of a routine (R120). -/
theorem modRM_failsBy {t : Target} {k : ModRM × Cursor → Except ErrorRecord (Instr × Cursor)} (ht : t.hasModRM = true)
    (hk : ∀ (m : ModRM) (c' : Cursor), c'.start = c.start →
      FailsBy (ModRMFault (t.badField m.reg m.isReg) m sg c.start) (fun d => k (m, d)) c') :
    FailsBy (RoutineFault t sg c) (fun c => c.readModRM >>= k) c := by
  refine readModRM_failsBy.bind fun M c' hread => ?_
  obtain ⟨m, ⟨hrest, -, hstart⟩, rfl⟩ := readModRM_reads hread
  exact (hk _ c' hstart).mono fun e he => .modRM ht hrest he

/-- The segment check of a routine without a memory operand (R122). -/
theorem noMem_failsBy {t : Target} {f : Cursor → Except ErrorRecord (Instr × Cursor)} (ht : t.lacksMem = true)
    (hf : sg = none → FailsBy (RoutineFault t sg c) f c) : FailsBy (RoutineFault t sg c) (fun c => noMem sg c f) c :=
  segCheck_failsBy (fun _ hl _ => .latch ht hl) fun hsg => hf (hsg rfl)

theorem byte_failsBy {t : Target} {f : Byte → Instr} (ht : t.lacksMem = true) :
    FailsBy (RoutineFault t sg c) (fun c => noMem sg c fun c => c.readByte >>= fun (v, c) => .ok (f v, c)) c :=
  noMem_failsBy ht fun _ => readByte_failsBy.bind fun _ _ _ => failsBy_ok

theorem word_failsBy {t : Target} {f : Word → Instr} (ht : t.lacksMem = true) :
    FailsBy (RoutineFault t sg c) (fun c => noMem sg c fun c => c.readWord >>= fun (v, c) => .ok (f v, c)) c :=
  noMem_failsBy ht fun _ => readWord_failsBy.bind fun _ _ _ => failsBy_ok

theorem bare_failsBy {t : Target} {i : Instr} (ht : t.lacksMem = true) :
    FailsBy (RoutineFault t sg c) (fun c => noMem sg c fun c => .ok (i, c)) c :=
  noMem_failsBy ht fun _ => failsBy_ok

theorem routine_failsBy {t : Target} {x : Located} (ht : t.Made x.byte) (hx : isPrefixByte x.byte = false) :
    FailsBy (RoutineFault t sg c) (routine t x sg) c := by
  cases t with
  | refuse => cases ht
  | prefixByte sh => exact absurd (hx.symm.trans ht) Bool.false_ne_true
  | group g =>
    refine modRM_failsBy rfl fun m c' hstart => ?_
    simp only [Target.badField]
    cases groupTable g m.reg with
    | none => exact failsBy_error (e := fun d => invalidField d.start m.off m.byte .reg) (hstart ▸ .field rfl)
    | some row => exact groupRoutine_failsBy row m x.byte hstart
  | regMemToFromReg f => exact modRM_failsBy rfl fun m _ hstart => regMemRoutine_failsBy f m x.byte hstart
  | immediateToAccumulator f =>
    cases f with
    | accImm mk => exact noMem_failsBy rfl fun _ => readImmW_failsBy.bind fun _ _ _ => failsBy_ok
    | accMem mk => exact segCheck_failsBy nofun fun _ => readWord_failsBy.bind fun _ _ _ => failsBy_ok
    | port8 mk => exact byte_failsBy rfl
  | immediateToRegister mk =>
    refine noMem_failsBy rfl fun _ => ?_
    cases fieldRegImmW x.byte
    · exact readByte_failsBy.bind fun _ _ _ => failsBy_ok
    · exact readWord_failsBy.bind fun _ _ _ => failsBy_ok
  | shortJump mk => exact byte_failsBy rfl
  | nearProcLabel mk => exact word_failsBy rfl
  | farProcLabel mk =>
    exact noMem_failsBy rfl fun _ => readWord_failsBy.bind fun _ _ _ => readWord_failsBy.bind fun _ _ _ => failsBy_ok
  | registerOnly mk => exact bare_failsBy rfl
  | segmentRegisterOnly mk => exact bare_failsBy rfl
  | noOperand f => cases f <;> exact bare_failsBy rfl
  | other f =>
    cases f with
    | imm8 mk => exact byte_failsBy rfl
    | imm16 mk => exact word_failsBy rfl
    | aa i =>
      refine noMem_failsBy rfl fun hsg => readLocated_failsBy.bind fun y c' hread => ?_
      obtain ⟨⟨hrest, -, hstart⟩, hoff⟩ := readLocated_reads hread
      refine failsBy_ite (fun _ => failsBy_ok) fun hb => failsBy_error (e := fun d => y.invalid d .aamAadBase) ?_
      rw [Located.invalid, hstart, hoff]
      exact .base rfl hsg hrest hb

end

end Sys2Proof
end

section
/-! Which bytes hold what a decode error records (R80, R81, R382 to R385): the prefixes (R113), then the fields that the lists of
Safety.lean refuse: O21. -/

namespace Sys2Proof

open Machine

/-! ## The refusals by the lists of Safety.lean (R80, R81) -/

/-- The ModRM field that the lists refuse for opcode `op`. -/
def listedBadField (op : Byte) (k : BitVec 3) (isReg : Bool) : Option FieldName :=
  if isReservedReg op k then some .reg
  else if isMemoryOnly op k && isReg then some .mod
  else if isBadSreg op k then some .sreg
  else none

/-- The lists give the fields that the target of opcode byte `op` refuses, and the other opcodes with a check. -/
abbrev Target.RefusesAsListed (op : Byte) (t : Target) : Prop :=
  (t.hasModRM = true → takesModRM op = true ∧ ∀ k isReg, t.badField k isReg = listedBadField op k isReg) ∧
  (t.lacksMem = true → takesModRM op = false ∧ op ∉ accMemBytes) ∧ (t.hasBase = true → op = 0xD4 ∨ op = 0xD5)

/-- The 256 opcode bytes: each target refuses what the lists say. -/
theorem dispatch_refusesAsListed {op : Byte} {t : Target} (hd : dispatch op = some t) (hp : isPrefixByte op = false) :
    t.RefusesAsListed op := by
  have hall : ∀ op : Byte, (dispatch op).all (fun t => isPrefixByte op || decide (t.RefusesAsListed op)) = true := by
    simp only [dispatch, firstEntry, Entry.hits_eq_beq]
    decide
  have hop := hall op
  rw [hd] at hop
  simpa only [Option.all_some, hp, Bool.false_or, decide_eq_true_eq] using hop

/-- The byte that holds a field the lists refuse (R384). -/
theorem holdsField_of_listed {op m : Byte} {o : Nat} {f : FieldName} (p : BodyPrefix) (post : List Byte)
    (h : listedBadField op (ModRM.of m o).reg (ModRM.of m o).isReg = some f) : HoldsField f (p.bytes ++ [op]) m post := by
  have hm := modRMByte_of m o
  unfold listedBadField at h
  split_ifs at h with hres hmem hsreg <;> cases h
  · exact ⟨p, op, _, _, _, rfl, hm.symm, hres⟩
  · obtain ⟨hmem, hreg⟩ := Bool.and_eq_true_iff.1 hmem
    rw [eq_of_beq hreg] at hm
    exact ⟨p, op, _, _, rfl, hm.symm, hmem⟩
  · exact ⟨p, op, _, _, _, rfl, hm.symm, hsreg⟩

/-- A register form of which the lists refuse no field is of an instruction without a memory operand. -/
theorem lacksMemory_of_listed {op m : Byte} {o : Nat} {r : List Byte} (hp : op ∉ prefixBytes) (hr : op ∉ refusedBytes)
    (ht : takesModRM op = true) (hreg : (ModRM.of m o).isReg = true)
    (h : listedBadField op (ModRM.of m o).reg (ModRM.of m o).isReg = none) : LacksMemory op (m :: r) := by
  have hm := modRMByte_of m o
  unfold listedBadField at h
  split_ifs at h with hres hmem hsreg
  rw [eq_of_beq hreg] at hm
  exact ⟨hp, hr, .inr ⟨ht, _, _, r, by rw [hm], by simpa using hres, by simpa [hreg] using hmem, by simpa using hsreg⟩⟩

/-! ## The shapes of an instruction's first bytes (R83, R113) -/

/-- How the bytes at an instruction's start begin: prefixes and then the end of the buffer, prefixes that fit an opcode byte,
or a byte that the prefixes before it refuse. -/
inductive PrefixShape : List Byte → Prop
  | ends (p : BodyPrefix) : PrefixShape p.bytes
  | endsRep (lock : Bool) (k : RepKind) : PrefixShape ((BodyPrefix.mk lock none).bytes ++ [k.byte])
  | body (p : BodyPrefix) (b : Byte) (r : List Byte) (hb : isPrefixByte b = false) : PrefixShape (p.bytes ++ b :: r)
  | rep (lock : Bool) (k : RepKind) (b : Byte) (r : List Byte) (hb : isStringByte b = true) :
      PrefixShape ((BodyPrefix.mk lock none).bytes ++ k.byte :: b :: r)
  | lockLock (r : List Byte) : PrefixShape (0xF0 :: 0xF0 :: r)
  | segPrefix (lock : Bool) (sr : Sreg) (b : Byte) (r : List Byte) (hb : isPrefixByte b = true) :
      PrefixShape ((BodyPrefix.mk lock (some sr)).bytes ++ b :: r)
  | repOther (lock : Bool) (k : RepKind) (b : Byte) (r : List Byte) (hb : isStringByte b = false) :
      PrefixShape ((BodyPrefix.mk lock none).bytes ++ k.byte :: b :: r)

/-- The segment register and byte of a segment prefix (R115). -/
theorem exists_sreg_of_isSegByte : ∀ b : Byte, isSegByte b = true → ∃ sr : Sreg, b = 0b001#3 ++ sr.bits ++ 0b110#3 := by
  have hall : ∀ b : Byte, isSegByte b = true → b = 0b001#3 ++ (fieldSr b).bits ++ 0b110#3 := by decide
  exact fun b hb => ⟨_, hall b hb⟩

/-- The kind of a repeat prefix (R116). -/
theorem exists_repKind_of_isRepByte (b : Byte) (hb : isRepByte b = true) : ∃ k : RepKind, b = k.byte := by
  have hall : ∀ b : Byte, isRepByte b = true → b = (fieldZ b).byte := by decide
  exact ⟨_, hall b hb⟩

/-- The bytes behind LOCK, or behind no LOCK, where no LOCK follows. -/
theorem prefixShape_of_head_ne_lock (lock : Bool) (l : List Byte) (h : l.head? ≠ some 0xF0) :
    PrefixShape ((BodyPrefix.mk lock none).bytes ++ l) := by
  cases l with
  | nil => rw [List.append_nil]; exact .ends _
  | cons b r =>
    cases hseg : isSegByte b with
    | true =>
      obtain ⟨sr, rfl⟩ := exists_sreg_of_isSegByte b hseg
      rw [List.append_cons, ← BodyPrefix.bytes_seg]
      cases r with
      | nil => rw [List.append_nil]; exact .ends _
      | cons b r =>
        cases hb : isPrefixByte b with
        | true => exact .segPrefix lock sr b r hb
        | false => exact .body _ b r hb
    | false =>
      cases hrep : isRepByte b with
      | true =>
        obtain ⟨k, rfl⟩ := exists_repKind_of_isRepByte b hrep
        cases r with
        | nil => exact .endsRep lock k
        | cons b r =>
          cases hb : isStringByte b with
          | true => exact .rep lock k b r hb
          | false => exact .repOther lock k b r hb
      | false => exact .body _ b r (isPrefixByte_eq_false (by simpa using h) hrep hseg)

theorem prefixShape (l : List Byte) : PrefixShape l := by
  by_cases hlock : l.head? = some 0xF0
  · obtain ⟨r, rfl⟩ := List.head?_eq_some_iff.1 hlock
    by_cases hlock' : r.head? = some 0xF0
    · obtain ⟨r, rfl⟩ := List.head?_eq_some_iff.1 hlock'
      exact .lockLock r
    · exact prefixShape_of_head_ne_lock true r hlock'
  · exact prefixShape_of_head_ne_lock false l hlock

/-- The prefix phase runs out of bytes behind the prefixes of a `Body`. -/
theorem prefixPhase_ends (p : BodyPrefix) (st : Nat) :
    prefixPhase ⟨st, st, p.bytes⟩ = .error (endOfStream st (st + p.bytes.length) 1) := by
  rcases p with ⟨_ | _, _ | sr⟩ <;> [skip; cases sr; skip; cases sr] <;> rfl

/-- The prefix phase runs out of bytes behind a repeat prefix. -/
theorem prefixPhase_endsRep (lock : Bool) (k : RepKind) (st : Nat) :
    prefixPhase ⟨st, st, (BodyPrefix.mk lock none).bytes ++ [k.byte]⟩ =
      .error (endOfStream st (st + ((BodyPrefix.mk lock none).bytes ++ [k.byte]).length) 1) := by
  cases lock <;> cases k <;> rfl

@[simp] theorem BodyPrefix.length_bytes (p : BodyPrefix) : p.bytes.length = p.count := by
  rcases p with ⟨_ | _, _ | sr⟩ <;> [skip; cases sr; skip; cases sr] <;> rfl

/-- The offset behind the prefixes and one more byte. -/
theorem BodyPrefix.add_count_add_one (p : BodyPrefix) (b : Byte) (st : Nat) :
    st + p.count + 1 = st + (p.bytes ++ [b]).length := by
  simp [Nat.add_assoc]

/-! ## What `DecodeOne` raises (R112) -/

/-- What `DecodeOne` raises on the bytes `l` at offset `st`, but for want of bytes (R383, R384). -/
inductive DecodeFault (st : Nat) (l : List Byte) : ErrorRecord → Prop
  | opcode (p : BodyPrefix) (b : Byte) (post : List Byte) (hl : l = p.bytes ++ b :: post) (hb : b ∈ refusedBytes) :
      DecodeFault st l (unknownOpcode st (st + p.count) b)
  | field (f : FieldName) (pre : List Byte) (b : Byte) (post : List Byte) (hl : l = pre ++ b :: post)
      (hf : HoldsField f pre b post) : DecodeFault st l (invalidField st (st + pre.length) b f)

/-- An error of the prefix phase is one of `DecodeOne`. -/
theorem decodeFrom_of_prefixPhase_error {c : Cursor} {e : ErrorRecord} (h : prefixPhase c = .error e) :
    decodeFrom c = .error e := by
  rw [decodeFrom, h]
  rfl

/-- Where the prefix phase runs out of bytes, nothing is left to cut. -/
theorem runsOut_of_prefixPhase {st : Nat} {l : List Byte}
    (h : prefixPhase ⟨st, st, l⟩ = .error (endOfStream st (st + l.length) 1)) :
    RunsOut decodeFrom ⟨st, st, l⟩ (endOfStream st (st + l.length) 1) :=
  ⟨l, [], 1, .inl rfl, (List.append_nil l).symm, Nat.one_pos, rfl, decodeFrom_of_prefixPhase_error h⟩

theorem decodeFrom_body_none (p : BodyPrefix) {b : Byte} (hb : isPrefixByte b = false) (hd : dispatch b = none)
    (st : Nat) (r : List Byte) : decodeFrom ⟨st, st, p.bytes ++ b :: r⟩ = .error (unknownOpcode st (st + p.count) b) := by
  simp only [decodeFrom, prefixPhase_body p b hb, hd, bind, Except.bind]

/-- `DecodeOne` on the prefixes of a `Body` and an opcode byte: the routine of the byte's target, whatever the bytes behind. -/
theorem decodeFrom_body (p : BodyPrefix) {b : Byte} {t : Target} (hb : isPrefixByte b = false) (hd : dispatch b = some t)
    (st : Nat) (r : List Byte) : decodeFrom ⟨st, st, p.bytes ++ b :: r⟩ =
      routine t ⟨b, st + p.count⟩ (p.latch st) ⟨st, st + p.count + 1, r⟩ >>= fun q =>
        .ok (Prefixes.wrap ⟨p.lock, p.latch st, none⟩ q.1, q.2) := by
  simp only [decodeFrom, prefixPhase_body p b hb, hd, bind, Except.bind, pure, Except.pure]

/-- A latch that comes without a memory operand is refused at the segment prefix (R122, R384). -/
theorem decodeFault_of_lacksMemory {p : BodyPrefix} {st : Nat} {l : SegLatch} {op : Byte} {rest : List Byte}
    (hl : p.latch st = some l) (h : LacksMemory op rest) :
    DecodeFault st (p.bytes ++ op :: rest) (invalidField st l.off l.byte .segmentOverride) := by
  obtain ⟨lock, _ | sr⟩ := p
  · cases hl
  · obtain ⟨b, hb, hlatch⟩ := BodyPrefix.latch_seg sr
    cases (hlatch lock st).symm.trans hl
    have hbytes : (BodyPrefix.mk lock (some sr)).bytes = (BodyPrefix.mk lock none).bytes ++ [b] := by
      rw [BodyPrefix.bytes_seg, ← hb, BodyPrefix.bytes_seg]; rfl
    dsimp only
    rw [hbytes, List.append_assoc, ← BodyPrefix.count_lock, ← BodyPrefix.length_bytes]
    exact .field .segmentOverride _ b (op :: rest) rfl ⟨lock, sr, op, rest, rfl, hb.symm, rfl, h⟩

/-- What the routine of an opcode byte behind the prefixes of a `Body` raises is what `DecodeOne` may raise. -/
theorem decodeFault_of_routineFault (p : BodyPrefix) {op : Byte} {t : Target} {st : Nat} {r : List Byte} {e : ErrorRecord}
    (hp : isPrefixByte op = false) (hd : dispatch op = some t)
    (h : RoutineFault t (p.latch st) ⟨st, st + p.count + 1, r⟩ e) : DecodeFault st (p.bytes ++ op :: r) e := by
  obtain ⟨hmodRM, hlacks, hbase⟩ := dispatch_refusesAsListed hd hp
  have hprefix : op ∉ prefixBytes := by rw [← isPrefixByte_iff_mem, hp]; exact Bool.false_ne_true
  have hrefused : op ∉ refusedBytes := by rw [← dispatch_eq_none_iff, hd]; exact nofun
  have hfield {f b post} (hf : HoldsField f (p.bytes ++ [op]) b post) :
      DecodeFault st (p.bytes ++ op :: b :: post) (invalidField st (st + p.count + 1) b f) := by
    rw [p.add_count_add_one op st]
    exact .field f _ b post (by simp) hf
  cases h with
  | modRM ht hrest hfault =>
    obtain ⟨htakes, hbadField⟩ := hmodRM ht
    cases hrest
    cases hfault with
    | field hbad => exact hfield (holdsField_of_listed p _ (hbadField .. ▸ hbad))
    | latch hbad hreg hsg =>
      exact decodeFault_of_lacksMemory hsg (lacksMemory_of_listed hprefix hrefused htakes hreg (hbadField .. ▸ hbad))
  | latch ht hsg => exact decodeFault_of_lacksMemory hsg ⟨hprefix, hrefused, .inl (hlacks ht)⟩
  | base ht hsg hrest hb =>
    cases hrest
    obtain ⟨lock, _ | sr⟩ := p
    · exact hfield ⟨lock, op, rfl, hbase ht, hb⟩
    · cases hsg

/-- Where `g` raises what `f` raises behind the bytes `pre`, it runs out of bytes where `f` does. -/
theorem RunsOut.append {α β : Type} {f : Cursor → Except ErrorRecord (α × Cursor)}
    {g : Cursor → Except ErrorRecord (β × Cursor)} {st : Nat} {pre r : List Byte} {e : ErrorRecord}
    (h : RunsOut f ⟨st, st + pre.length, r⟩ e)
    (hg : ∀ r e, f ⟨st, st + pre.length, r⟩ = .error e → g ⟨st, st, pre ++ r⟩ = .error e) :
    RunsOut g ⟨st, st, pre ++ r⟩ e := by
  obtain ⟨l, r', w, hw, hrest, hr, rfl, hcut⟩ := h
  have hpos : st + pre.length + l.length = st + (pre ++ l).length := by rw [List.length_append, Nat.add_assoc]
  refine ⟨pre ++ l, r', w, hw, ?_, hr, ?_, ?_⟩
  · rw [List.append_assoc, ← hrest]
  · rw [← hpos]
  · rw [← hpos]
    exact hg l _ hcut

/-- The errors of `DecodeOne` where the prefixes of a `Body` and an opcode byte are there: no such opcode, or the routine's. -/
theorem decodeFrom_error_body (p : BodyPrefix) {op : Byte} {st : Nat} {e : ErrorRecord} (r : List Byte)
    (hp : isPrefixByte op = false) (h : decodeFrom ⟨st, st, p.bytes ++ op :: r⟩ = .error e) :
    RunsOut decodeFrom ⟨st, st, p.bytes ++ op :: r⟩ e ∨ DecodeFault st (p.bytes ++ op :: r) e := by
  cases hd : dispatch op with
  | none =>
    rw [decodeFrom_body_none p hp hd] at h
    cases h
    exact .inr (.opcode p op r rfl ((dispatch_eq_none_iff op).1 hd))
  | some t =>
    have hbody := decodeFrom_body p hp hd st
    cases hroutine : routine t ⟨op, st + p.count⟩ (p.latch st) ⟨st, st + p.count + 1, r⟩ with
    | ok a => rw [hbody, hroutine] at h; cases h
    | error e' =>
      rw [hbody, hroutine] at h
      cases h
      refine ((routine_failsBy (dispatch_made op t hd) hp).error e hroutine).imp (fun hruns => ?_)
        (decodeFault_of_routineFault p hp hd)
      rw [p.add_count_add_one op st] at hruns hbody
      rw [List.append_cons]
      refine hruns.append fun r e he => ?_
      rw [← List.append_cons, hbody, he]
      rfl

/-- Every error of `DecodeOne`, one shape of the first bytes at a time. -/
theorem decodeFrom_error {st : Nat} {l : List Byte} {e : ErrorRecord} (h : decodeFrom ⟨st, st, l⟩ = .error e) :
    RunsOut decodeFrom ⟨st, st, l⟩ e ∨ DecodeFault st l e := by
  have hprefix {e'} (h' : prefixPhase ⟨st, st, l⟩ = .error e') : e = e' := by
    cases h.symm.trans (decodeFrom_of_prefixPhase_error h'); rfl
  cases prefixShape l with
  | ends p =>
    obtain rfl := hprefix (prefixPhase_ends p st)
    exact .inl (runsOut_of_prefixPhase (prefixPhase_ends p st))
  | endsRep lock k =>
    obtain rfl := hprefix (prefixPhase_endsRep lock k st)
    exact .inl (runsOut_of_prefixPhase (prefixPhase_endsRep lock k st))
  | body p b r hb => exact decodeFrom_error_body p r hb h
  | rep lock k b r hb =>
    obtain ⟨mk, hd, -⟩ := dispatch_string b hb
    cases h.symm.trans (decodeFrom_of_parts (prefixPhase_rep lock k b hb st r) hd rfl)
  | lockLock r =>
    obtain rfl := hprefix (prefixPhase_lock_lock st r)
    exact .inr (.field .prefixByte [0xF0] 0xF0 r rfl (.inl ⟨rfl, rfl⟩))
  | segPrefix lock sr b r hb =>
    obtain rfl := hprefix (prefixPhase_seg_prefix lock sr hb st r)
    rw [← BodyPrefix.length_bytes]
    exact .inr (.field .prefixByte _ b r rfl (.inr ⟨lock, sr, rfl, (isPrefixByte_iff_mem b).1 hb⟩))
  | repOther lock k b r hb =>
    obtain rfl := hprefix (prefixPhase_rep_other lock k hb st r)
    have hk : k.byte = 0xF2 ∨ k.byte = 0xF3 := by cases k <;> simp [RepKind.byte]
    have hs : b ∉ stringBytes := by rw [← isStringByte_iff_mem, hb]; exact Bool.false_ne_true
    rw [BodyPrefix.add_count_add_one _ k.byte st]
    exact .inr (.field .repFollow _ b r (by simp) ⟨lock, k.byte, rfl, hk, hs⟩)

/-- `DecodeOne` at an offset of the buffer raises what it raises on the bytes from there on. -/
theorem decodeFrom_error_of_decodeOne {buf : List Byte} {start : Nat} {e : ErrorRecord} (h : decodeOne buf start = .error e) :
    decodeFrom ⟨start, start, buf.drop start⟩ = .error e := by
  cases hd : decodeFrom (Cursor.at buf start) with
  | ok p => rw [decodeOne, hd] at h; cases h
  | error e' => rw [decodeOne, hd] at h; cases h; exact hd

/-- The buffer cut where the bytes `l` from `start` on end. -/
theorem at_take_of_drop {buf l r : List Byte} {start : Nat} (h : buf.drop start = l ++ r) :
    Cursor.at (buf.take (start + l.length)) start = ⟨start, start, l⟩ := by
  rw [Cursor.at, List.drop_take, h, Nat.add_sub_cancel_left, List.take_left]

/-- Settles O21: a failing read lacks all its bytes where the buffer is cut before it, and any other error is at a byte that the
lists refuse. -/
theorem errorRecordFields : Obligations.ErrorRecordFields := by
  intro buf start e hle h
  refine ⟨instrStart_of_decodeOne_error h, ?_⟩
  obtain ⟨l, r, w, hw, hrest, hr, rfl, hcut⟩ | hfault := decodeFrom_error (decodeFrom_error_of_decodeOne h)
  · have hrest : buf.drop start = l ++ r := hrest
    have hlen := congrArg List.length hrest
    rw [List.length_drop, List.length_append] at hlen
    have hmissing : w - r.length = start + l.length + w - buf.length := by omega
    refine .inl ⟨rfl, rfl, rfl, rfl, Nat.le_add_right .., w, hw, ?_, ?_, congrArg some hmissing, ?_⟩
    · change start + l.length ≤ buf.length
      omega
    · change buf.length < start + l.length + w
      omega
    · change decodeOne (buf.take (start + l.length)) start = _
      rw [decodeOne, at_take_of_drop hrest, hcut]
      rfl
  · cases hfault with
    | opcode p b post hl hb => exact .inr (.inl ⟨rfl, rfl, rfl, rfl, p, b, post, hl, hb, rfl, rfl⟩)
    | field f pre b post hl hf => exact .inr (.inr ⟨rfl, rfl, rfl, f, pre, b, post, hl, rfl, rfl, rfl, hf⟩)

end Sys2Proof
end
